-- ==== Sys2Proof/Word.lean ====
section
/-! DEFINITION. The widths of the spec's values (00_scope.md R10, R12): every value is an unsigned bit vector. -/

namespace Sys2Proof

/-- A register address (`ADDR_WIDTH`, R10). -/
abbrev U3 := BitVec 3

/-- A step-mode code (R140). -/
abbrev U4 := BitVec 4

/-- A gain or dead-time code (R150, R155). -/
abbrev U2 := BitVec 2

/-- An argument of SET_TORQUE or SET_OFF_TIME (R83), and one half of a frame (R55). -/
abbrev U8 := BitVec 8

/-- The data of a write frame (`DATA_WIDTH`, R10). -/
abbrev U12 := BitVec 12

/-- A register, a shadow, a frame or an argument (`REG_WIDTH`, `FRAME_WIDTH`, R10). -/
abbrev U16 := BitVec 16

/-- A command word (`CMD_WIDTH`, R10). -/
abbrev U32 := BitVec 32

end Sys2Proof
end

