-- ==== Sys2Proof/Config.lean ====
section
/-! DEFINITION. The block's parameters (00_scope.md R10, R11; 10_state.md R36) and the free values.
An `opaque` constant has no body: nothing can be proved of its value. -/

namespace Sys2Proof

/-- A physical level of the chip-select line (R11). -/
inductive Level where
  | high
  | low
  deriving DecidableEq, Repr, Inhabited

/-- The 16 bits the bus capability returns for the n-th exchange: a draw with no law (20_memory.md R60, U4, U5, U7).
Marked in notes/assumptions/1.md; safe. -/
opaque Config.busDraw : Nat → U16

/-- The clock rate in hertz, an OPEN parameter that no rule uses (R10, R11, U14). notes/assumptions/8.md. -/
opaque Config.sclkHz : Nat

/-- The physical level of `Asserted`, an OPEN parameter (R10, R11, U13). notes/assumptions/8.md. -/
opaque Config.csActiveLevel : Level

/-- SPI mode: clock idle level and sampling edge, applied by the bus capability to every exchange (R10, R56). -/
structure SpiMode where
  idleHigh : Bool
  sampleTrailing : Bool
  deriving DecidableEq, Repr

/-- Mode 0: the clock idles low and data is sampled on the leading edge (R10, R56). -/
def Config.spiMode : SpiMode := { idleHigh := false, sampleTrailing := false }

end Sys2Proof
end

