-- ==== Sys2Proof/Syntax.lean ====
section
/-! DEFINITION. The units the block executes (00_scope.md R3, R4): the sixteen commands of 30_encoding.md R81 and
the two SPI frames of R90 and R91, one constructor per row of spec/opcode_table.json, in the table's order. -/

namespace Sys2Proof

/-- A command of the host, or a frame the transport shifts to the device. -/
inductive Instr where
  /-- INIT (R116): bind the chip-select line named by the 16-bit identifier. -/
  | init (line : U16)
  /-- READ (R117): read a device register. -/
  | read (a : U3)
  /-- WRITE (R118): write a device register, bypassing the shadow. -/
  | write (a : U3) (v : U16)
  /-- ENABLE (R135): set CTRL bit 0. -/
  | enable
  /-- DISABLE (R136): clear CTRL bit 0, or all of CTRL when `disableClearsAll`. -/
  | disable
  /-- FLIP_DIR (R137): toggle CTRL bit 1. -/
  | flipDir
  /-- STEP (R138): set CTRL bit 2. -/
  | step
  /-- SET_STEP_MODE (R141): merge the step-mode code of `m` into CTRL bits 6 to 3. -/
  | setStepMode (m : U16)
  /-- SET_EXT_STALL (R145): set CTRL bit 7. -/
  | setExtStall
  /-- SET_INT_STALL (R146): clear CTRL bit 7. -/
  | setIntStall
  /-- SET_GAIN (R151): merge the gain code of `g` into CTRL bits 9 and 8. -/
  | setGain (g : U16)
  /-- SET_DEAD_TIME (R156): merge the dead-time code of `t` nanoseconds into CTRL bits 11 and 10. -/
  | setDeadTime (t : U16)
  /-- SET_TORQUE (R170): merge `v` into TORQUE bits 7 to 0. -/
  | setTorque (v : U8)
  /-- SET_OFF_TIME (R171): merge `v` into OFF bits 7 to 0. -/
  | setOffTime (v : U8)
  /-- SET_PWM_MODE (R172): toggle OFF bit 8; the argument is not read. -/
  | setPwmMode (mode : U16)
  /-- READ_SHADOW (R175): return a shadow register without bus traffic. -/
  | readShadow (a : U3)
  /-- READ_FRAME (R90): the transport shifts the read frame of address `a`. -/
  | readFrame (a : U3)
  /-- WRITE_FRAME (R91): the transport shifts the write frame of data `d` to address `a`. -/
  | writeFrame (a : U3) (d : U12)
  deriving DecidableEq, Repr

end Sys2Proof
end

