-- ==== Sys2Proof/WellFormed.lean ====
section
/-! DEFINITION. Which instructions have an encoding (30_encoding.md R81, R84). Operand widths are in the types of
Syntax.lean; the one check left is READ_SHADOW's address. -/

namespace Sys2Proof

/-- READ_SHADOW takes an address that has a shadow: not 0x5 and not 0x6 (R81, R175). -/
def hasShadow (a : U3) : Bool := a != 5 && a != 6

/-- The instruction is one the encoding of R81, R90 and R91 can spell. -/
def Instr.wellFormed : Instr → Bool
  | .init _ => true
  | .read _ => true
  | .write _ _ => true
  | .enable => true
  | .disable => true
  | .flipDir => true
  | .step => true
  | .setStepMode _ => true
  | .setExtStall => true
  | .setIntStall => true
  | .setGain _ => true
  | .setDeadTime _ => true
  | .setTorque _ => true
  | .setOffTime _ => true
  | .setPwmMode _ => true
  | .readShadow a => hasShadow a
  | .readFrame _ => true
  | .writeFrame _ _ => true

end Sys2Proof
end

