-- ==== Sys2Proof/Decode.lean ====
section
/-! DEFINITION. The decoder of command words (30_encoding.md R80 to R84) and of frames (R90, R91, R93, R94), total on
every word, and the encoder written from the same tables. -/

namespace Sys2Proof

/-- What is presented to the block for execution: a 32-bit command word at the command port (R80), or a 16-bit frame
handed to the transport (R3; notes/assumptions/3.md). -/
inductive Packet where
  | command (w : U32)
  | frame (f : U16)
  deriving DecidableEq, Repr

/-- Why a word is no instruction: the four classes of R84, and R93 for frames. -/
inductive IllegalReason where
  /-- R84 (1): `RSV` is not zero. -/
  | reservedField
  /-- R84 (2): an opcode from 0x10 to 0xFF. -/
  | reservedOpcode
  /-- R84 (3): an operand field that must be zero is not. -/
  | operandNotZero
  /-- R84 (4): READ_SHADOW of 0x5 or 0x6. -/
  | noSuchShadow
  /-- R93: a frame with bit 15 set and data bits not zero. -/
  | notAFrame
  deriving DecidableEq, Repr

/-- The decoder's answer (R82). -/
inductive Decoded where
  | instr (i : Instr)
  | illegal (why : IllegalReason)
  deriving DecidableEq, Repr

/-- `OPC`, bits 31 to 24 (R80). -/
def opcField (w : U32) : U8 := w.extractLsb' 24 8

/-- `RSV`, bits 23 to 19 (R80). -/
def rsvField (w : U32) : BitVec 5 := w.extractLsb' 19 5

/-- `A`, bits 18 to 16 (R80). -/
def aField (w : U32) : U3 := w.extractLsb' 16 3

/-- `D`, bits 15 to 0 (R80). -/
def dField (w : U32) : U16 := w.extractLsb' 0 16

/-- A command that takes no operand: `A` and `D` must be 0 (R81). -/
def bareCommand (a : U3) (d : U16) (i : Instr) : Decoded :=
  if a = 0 ∧ d = 0 then .instr i else .illegal .operandNotZero

/-- A command whose operand is all of `D`: `A` must be 0 (R81). -/
def wordCommand (a : U3) (i : Instr) : Decoded :=
  if a = 0 then .instr i else .illegal .operandNotZero

/-- A command whose operand is `D[7:0]`: `A` and `D[15:8]` must be 0 (R81, R83). -/
def byteCommand (a : U3) (d : U16) (i : Instr) : Decoded :=
  if a = 0 ∧ d.extractLsb' 8 8 = 0 then .instr i else .illegal .operandNotZero

/-- READ: `D` must be 0 (R81, R82). -/
def decodeRead (a : U3) (d : U16) : Decoded :=
  if d = 0 then .instr (.read a) else .illegal .operandNotZero

/-- READ_SHADOW: `D` must be 0 and `A` must have a shadow (R81, R82). -/
def decodeReadShadow (a : U3) (d : U16) : Decoded :=
  if d ≠ 0 then .illegal .operandNotZero
  else if hasShadow a then .instr (.readShadow a) else .illegal .noSuchShadow

/-- The opcode assignment (R81) as the cases of R82. -/
def decodeOpcode (opc : U8) (a : U3) (d : U16) : Decoded :=
  match opc.toNat with
  | 0x00 => wordCommand a (.init d)
  | 0x01 => decodeRead a d
  | 0x02 => .instr (.write a d)
  | 0x03 => bareCommand a d .enable
  | 0x04 => bareCommand a d .disable
  | 0x05 => bareCommand a d .flipDir
  | 0x06 => bareCommand a d .step
  | 0x07 => wordCommand a (.setStepMode d)
  | 0x08 => bareCommand a d .setExtStall
  | 0x09 => bareCommand a d .setIntStall
  | 0x0A => wordCommand a (.setGain d)
  | 0x0B => wordCommand a (.setDeadTime d)
  | 0x0C => byteCommand a d (.setTorque (d.extractLsb' 0 8))
  | 0x0D => byteCommand a d (.setOffTime (d.extractLsb' 0 8))
  | 0x0E => wordCommand a (.setPwmMode d)
  | 0x0F => decodeReadShadow a d
  | _ => .illegal .reservedOpcode

/-- `decode` of R82: the reserved field first, then the opcode. -/
def decodeCommand (w : U32) : Decoded :=
  if rsvField w ≠ 0 then .illegal .reservedField
  else decodeOpcode (opcField w) (aField w) (dField w)

/-- The address field of a frame (R94). -/
def frameAddr (f : U16) : U3 := f.extractLsb' 12 3

/-- The data field of a frame (R94). -/
def frameData (f : U16) : U12 := f.extractLsb' 0 12

/-- The direction bit of a frame: true for a read (R94). -/
def frameIsRead (f : U16) : Bool := f.getLsbD 15

/-- A frame read by R94; a read frame whose data bits are not 0 is no frame (R93). -/
def decodeFrame (f : U16) : Decoded :=
  if frameIsRead f then
    if frameData f = 0 then .instr (.readFrame (frameAddr f)) else .illegal .notAFrame
  else .instr (.writeFrame (frameAddr f) (frameData f))

/-- The decoder: total on every packet. -/
def decode : Packet → Decoded
  | .command w => decodeCommand w
  | .frame f => decodeFrame f

/-- The outgoing word of a read of address `a`: `(0b1000 | a) << 12` (R90). -/
def readFrameWord (a : U3) : U16 := (0b1000#16 ||| a.setWidth 16) <<< 12

/-- The outgoing word of a write of `v` to address `a`: `(a << 12) | v` (R91). -/
def writeFrameWord (a : U3) (v : U16) : U16 := (a.setWidth 16 <<< 12) ||| v

/-- A command word from its fields, `RSV` zero (R80). -/
def commandWord (opc : U8) (a : U3) (d : U16) : U32 := opc ++ 0#5 ++ a ++ d

/-- An 8-bit operand as the `D` field (R83). -/
def byteOperand (v : U8) : U16 := 0#8 ++ v

/-- The encoder: the word of an instruction (R81 for commands, R90 and R91 for frames). -/
def encode : Instr → Packet
  | .init line => .command (commandWord 0x00 0 line)
  | .read a => .command (commandWord 0x01 a 0)
  | .write a v => .command (commandWord 0x02 a v)
  | .enable => .command (commandWord 0x03 0 0)
  | .disable => .command (commandWord 0x04 0 0)
  | .flipDir => .command (commandWord 0x05 0 0)
  | .step => .command (commandWord 0x06 0 0)
  | .setStepMode m => .command (commandWord 0x07 0 m)
  | .setExtStall => .command (commandWord 0x08 0 0)
  | .setIntStall => .command (commandWord 0x09 0 0)
  | .setGain g => .command (commandWord 0x0A 0 g)
  | .setDeadTime t => .command (commandWord 0x0B 0 t)
  | .setTorque v => .command (commandWord 0x0C 0 (byteOperand v))
  | .setOffTime v => .command (commandWord 0x0D 0 (byteOperand v))
  | .setPwmMode mode => .command (commandWord 0x0E 0 mode)
  | .readShadow a => .command (commandWord 0x0F a 0)
  | .readFrame a => .frame (readFrameWord a)
  | .writeFrame a d => .frame (writeFrameWord a (d.setWidth 16))

/-- The 32-bit word a fault record keeps for a packet (R200); a bare frame is zero-extended (notes/assumptions/3.md). -/
def Packet.word : Packet → U32
  | .command w => w
  | .frame f => f.setWidth 32

/-- The current command word `w` of an instruction (R17, R200). -/
def Instr.word (i : Instr) : U32 := (encode i).word

/-- The packet a table word of `nbits` bits is: 16-bit rows are frames, 32-bit rows are command words. -/
def tablePacket (nbits w : Nat) : Packet :=
  if nbits ≤ 16 then .frame (BitVec.ofNat 16 w) else .command (BitVec.ofNat 32 w)

/-- The instruction the decoder reads from a word of the opcode table. -/
def decodeTableWord (nbits w : Nat) : Option Instr :=
  match decode (tablePacket nbits w) with
  | .instr i => some i
  | .illegal _ => none

end Sys2Proof
end

