-- ==== Sys2Proof/Machine/Memory.lean ====
section
/-! DEFINITION. The device register space as data (20_memory.md R50 to R53, R61): eight addresses of one 16-bit word each,
held as a list of (address, word) pairs, addresses rising. An address that is not listed holds an unknown value, the
spec's `none`. There is no byte access (R52), so the cell is the whole register (notes/assumptions/14.md). -/

namespace Sys2Proof.Machine

/-- Known device registers, by rising address. -/
abbrev Memory := List (Nat × U16)

/-- What an unlisted address reads as: `none`, the device's value there is unknown (R61). -/
def Memory.unlisted : Option U16 := none

/-- `dev[a]` (R61). -/
def Memory.read : Memory → Nat → Option U16
  | [], _ => Memory.unlisted
  | (b, w) :: m, a => if b = a then some w else Memory.read m a

/-- `dev[a] <- some(v)`, keeping the addresses rising. -/
def Memory.write : Memory → Nat → U16 → Memory
  | [], a, v => [(a, v)]
  | (b, w) :: m, a, v =>
    if a < b then (a, v) :: (b, w) :: m
    else if a = b then (a, v) :: m
    else (b, w) :: Memory.write m a v

/-- `dev[a] <- none`. -/
def Memory.erase : Memory → Nat → Memory
  | [], _ => []
  | (b, w) :: m, a => if b = a then Memory.erase m a else (b, w) :: Memory.erase m a

/-- The addresses rise strictly, the first being at least `lo`, and all are device addresses (below 8). -/
def Memory.risingFrom : Nat → Memory → Bool
  | _, [] => true
  | lo, (a, _) :: m => decide (lo ≤ a) && decide (a < 8) && Memory.risingFrom (a + 1) m

/-- The canonical form: equal register spaces are equal lists. -/
def Memory.wf (m : Memory) : Bool := Memory.risingFrom 0 m

end Sys2Proof.Machine
end

