-- ==== Sys2Proof/Machine/State.lean ====
section
/-! DEFINITION. Every piece of state of the spec (10_state.md), as plain data, and its value after reset (R39). -/

namespace Sys2Proof.Machine

/-- A shadow register, by the name of its device register (R20). -/
inductive ShadowReg where
  | ctrl
  | torque
  | off
  | blank
  | decay
  | status
  deriving DecidableEq, Repr

/-- The shadow register file: six registers of 16 bits (R20 to R26). -/
structure Shadow where
  ctrl : U16
  torque : U16
  off : U16
  blank : U16
  decay : U16
  status : U16
  deriving DecidableEq, Repr

/-- The logical level of the chip-select line (R29). -/
inductive ChipSelect where
  | unbound
  | deasserted
  | asserted
  deriving DecidableEq, Repr

/-- Where a transaction stands (R30). -/
inductive Phase where
  | idle
  | selected
  | exchanged
  deriving DecidableEq, Repr

/-- An event of the bus trace (R31). -/
inductive BusEvent where
  | bind (line : U16)
  | csAssert
  | csDeassert
  | xfer (out inn : U16)
  | reset
  deriving DecidableEq, Repr

/-- The closed set of fault reasons (60_exceptions.md R200). -/
inductive FaultReason where
  /-- Code 1: the word does not decode (R201). -/
  | illegalCommand
  /-- Code 2: a command but INIT and READ_SHADOW while `initialized` is false (R202). -/
  | notInitialized
  /-- Code 3: INIT while `initialized` is true (R203). -/
  | alreadyInitialized
  /-- Code 4: WRITE of a value with any of bits 15 to 12 set (R204). -/
  | writeValueTooWide
  deriving DecidableEq, Repr

/-- The fault record: reason, command word, and `pc` when it was raised (R34, R200). -/
structure FaultRecord where
  reason : FaultReason
  word : U32
  atPc : Nat
  deriving DecidableEq, Repr

/-- What the host and the environment do next (00_scope.md R9; notes/assumptions/2.md, 6.md, 11.md, 12.md). -/
inductive Input where
  /-- A command word at the command port, or a bare frame given to the transport. -/
  | issue (p : Packet)
  /-- The same, cut by a reset of the block once it has emitted `k` bus events (R234). -/
  | issueCut (p : Packet) (k : Nat)
  /-- A reset of the block alone, between commands (R230, R231). -/
  | blockReset
  /-- Power-on of block and device at once (R216, R233). -/
  | powerCycle
  /-- A reset of the device alone, which the shadow does not observe (R71). -/
  | deviceReset
  /-- The device clears bit 2 of its CTRL register, at a time after the write of a 1 that the source does not give; the
  shadow does not observe it (R64, R71; notes/assumptions/6.md). -/
  | stepSelfClear
  deriving DecidableEq, Repr

/-- The whole state: the block's (R20 to R34), the environment's that R37 lists, one configuration bit, and two fields
of the model's own (`draws`, `inputs`). -/
structure State where
  /-- `x[r]` (R20). -/
  shadow : Shadow
  /-- INIT has run since reset (R28). -/
  initialized : Bool
  /-- The chip-select line INIT bound (R28). -/
  line : Option U16
  /-- The logical chip-select level (R29). -/
  cs : ChipSelect
  /-- Where the transaction in progress stands (R30). -/
  phase : Phase
  /-- The bus event history, oldest first (R31). -/
  trace : List BusEvent
  /-- Commands completed since reset (R32). -/
  pc : Nat
  /-- The response port (R33). -/
  resp : Option U16
  /-- The fault record (R34). -/
  fault : Option FaultRecord
  /-- The device's registers as far as they are known (R37, R61): environment. -/
  dev : Memory
  /-- A write frame the device has received and not yet taken into effect (R37, R62): environment. -/
  pendingLatch : Option (U3 × U12)
  /-- The parameter of R10 and R136; no step changes it (notes/assumptions/7.md). -/
  disableClearsAll : Bool
  /-- The model's own: exchanges done so far, the index of the next bus draw (notes/assumptions/1.md). -/
  draws : Nat
  /-- The model's own: what the host and the environment do next (notes/assumptions/2.md). -/
  inputs : List Input
  deriving DecidableEq, Repr

/-- Why a step stops the model. No fault of the SPEC is here: those are recorded in `State.fault` and the step goes on
to a next state (R206). -/
inductive Fault where
  /-- Raised by `step` when the transport is handed a bare 16-bit word that is neither a read nor a write frame (R93):
  no command produces one and the spec gives it no effect (U20). Safe: the model stops. -/
  | frameNeverSent
  deriving DecidableEq, Repr

/-- Why an instruction has no meaning in the model. -/
inductive Refusal where
  /-- Raised by an arm of `exec` whose instruction has no meaning yet; no arm does. Safe. -/
  | notModelled (mnemonic : String)
  deriving DecidableEq, Repr

/-- The answer of a meaning. -/
abbrev Result := Host.Outcome State Fault Refusal

/-- The reset values of the shadows (R20, R39). -/
def Shadow.reset : Shadow :=
  { ctrl := 0x0C10, torque := 0x01FF, off := 0x0030, blank := 0x0080, decay := 0x0110, status := 0x0000 }

/-- The device's power-on defaults; 0x5, 0x6 and 0x7 are unknown (R61). -/
def devDefaults : Memory :=
  [(0, 0x0C10), (1, 0x01FF), (2, 0x0030), (3, 0x0080), (4, 0x0110)]

/-- The machine right after power-on (R39, R233). -/
def State.reset : State :=
  { shadow := Shadow.reset
    initialized := false
    line := none
    cs := .unbound
    phase := .idle
    trace := [.reset]
    pc := 0
    resp := none
    fault := none
    dev := devDefaults
    pendingLatch := none
    disableClearsAll := false
    draws := 0
    inputs := [] }

end Sys2Proof.Machine
end

