-- ==== Sys2Proof/Machine/Device.lean ====
section
/-! DEFINITION. The device reference model (20_memory.md R61 to R65): what the device does with the bus events it sees.
It is environment, not block: no meaning reads it (10_state.md R37; notes/assumptions/9.md). -/

namespace Sys2Proof.Machine

/-- `DeviceWriteLatch`, first half (R62): inside a bracket a frame with bit 15 clear is latched; any other exchange
leaves the latch. -/
def latchOnXfer (cs : ChipSelect) (out : U16) (latch : Option (U3 × U12)) : Option (U3 × U12) :=
  if cs = .asserted ∧ frameIsRead out = false then some (frameAddr out, frameData out) else latch

/-- `DeviceWriteLatch`, second half (R62): at the deassert the latched write takes effect; the effect at 0x5, 0x6 and
0x7 is not in the source, so the register becomes unknown. -/
def devOnDeassert (dev : Memory) : Option (U3 × U12) → Memory
  | none => dev
  | some (a, d) =>
    if a.toNat ≤ 4 then Memory.write dev a.toNat (d.setWidth 16) else Memory.erase dev a.toNat

/-- `DeviceStepSelfClear` (R64): the device clears bit 2 of its CTRL register, where that register is known. -/
def devOnSelfClear (dev : Memory) : Memory :=
  match Memory.read dev 0 with
  | some v => Memory.write dev 0 (v &&& ~~~0x0004)
  | none => dev

/-- `DeviceInterrupted` (R65): what a reset or power loss of the block does to the device's registers, by where the
transaction stood. A write frame that had been exchanged makes its register unknown; a cut exchange makes all unknown. -/
def devOnCut (phase : Phase) (dev : Memory) (latch : Option (U3 × U12)) : Memory :=
  match phase, latch with
  | .idle, _ => dev
  | .exchanged, some (a, _) => Memory.erase dev a.toNat
  | .exchanged, none => dev
  | .selected, _ => []

/-- `DeviceInterrupted` (R65): an interrupted bracket clears the latch. -/
def latchOnCut (phase : Phase) (latch : Option (U3 × U12)) : Option (U3 × U12) :=
  match phase with
  | .idle => latch
  | .selected => none
  | .exchanged => none

end Sys2Proof.Machine
end

