-- ==== Sys2Proof/Machine/Flags.lean ====
section
/-! DEFINITION. The block has no status flags or condition codes (10_state.md R35). What this file holds in their place
is the bit fields of the registers: the descriptors, the merge and the extraction (41_controller_ctrl.md R131,
42_controller_regs.md R180). -/

namespace Sys2Proof.Machine

/-- A field descriptor: register, offset and width (R131). -/
structure BitField where
  reg : ShadowReg
  offset : Nat
  width : Nat
  deriving DecidableEq, Repr

/-- `CTRL.EN`, bit 0. -/
def ctrlEn : BitField := { reg := .ctrl, offset := 0, width := 1 }

/-- `CTRL.DIR`, bit 1. -/
def ctrlDir : BitField := { reg := .ctrl, offset := 1, width := 1 }

/-- `CTRL.STEP`, bit 2. -/
def ctrlStep : BitField := { reg := .ctrl, offset := 2, width := 1 }

/-- `CTRL.MODE`, bits 6 to 3. -/
def ctrlMode : BitField := { reg := .ctrl, offset := 3, width := 4 }

/-- `CTRL.EXSTALL`, bit 7. -/
def ctrlExstall : BitField := { reg := .ctrl, offset := 7, width := 1 }

/-- `CTRL.GAIN`, bits 9 and 8. -/
def ctrlGain : BitField := { reg := .ctrl, offset := 8, width := 2 }

/-- `CTRL.DTIME`, bits 11 and 10. -/
def ctrlDtime : BitField := { reg := .ctrl, offset := 10, width := 2 }

/-- `TORQUE.VAL`, bits 7 to 0. -/
def torqueVal : BitField := { reg := .torque, offset := 0, width := 8 }

/-- `OFF.TOFF`, bits 7 to 0. -/
def offToff : BitField := { reg := .off, offset := 0, width := 8 }

/-- `OFF.PWM`, bit 8. -/
def offPwm : BitField := { reg := .off, offset := 8, width := 1 }

/-- The ten fields of R131's table, in its order. -/
def allFields : List BitField :=
  [ctrlEn, ctrlDir, ctrlStep, ctrlMode, ctrlExstall, ctrlGain, ctrlDtime, torqueVal, offToff, offPwm]

/-- `mask = ((1 << width) - 1) << offset` (R131). -/
def fieldMask (f : BitField) : U16 := ((1#16 <<< f.width) - 1#16) <<< f.offset

/-- `merge(old, f, c) = (old & ~f.mask) | (c << f.offset)` (R131). -/
def merge (old : U16) (f : BitField) (c : U16) : U16 := (old &&& ~~~(fieldMask f)) ||| (c <<< f.offset)

/-- `field(x, f) = (x & f.mask) >> f.offset` (R180). -/
def fieldOf (x : U16) (f : BitField) : U16 := (x &&& fieldMask f) >>> f.offset

end Sys2Proof.Machine
end

