-- ==== Sys2Proof/Machine/Operands.lean ====
section
/-! DEFINITION. The operand forms: register names and addresses (10_state.md R20), and the encode and decode tables of
the enumerated settings with their fallbacks (41_controller_ctrl.md R140, R150, R155; 42_controller_regs.md R181 to R183).
Arguments are compared exactly, as unsigned 16-bit values (30_encoding.md R83). -/

namespace Sys2Proof.Machine

/-- `addr(r)`: the device address of a register (R20). -/
def ShadowReg.addr : ShadowReg → U3
  | .ctrl => 0
  | .torque => 1
  | .off => 2
  | .blank => 3
  | .decay => 4
  | .status => 7

/-- The register with a shadow at an address, if there is one: 0x5 and 0x6 have none (R20). -/
def shadowAt (a : U3) : Option ShadowReg :=
  if a = 0 then some .ctrl
  else if a = 1 then some .torque
  else if a = 2 then some .off
  else if a = 3 then some .blank
  else if a = 4 then some .decay
  else if a = 7 then some .status
  else none

/-- `encMode`: the step-mode table and its fallback 2 (R140). -/
def encMode (m : U16) : U4 :=
  if m = 1 then 0
  else if m = 2 then 1
  else if m = 4 then 2
  else if m = 8 then 3
  else if m = 16 then 4
  else if m = 32 then 5
  else if m = 64 then 6
  else if m = 128 then 7
  else if m = 256 then 8
  else 2

/-- `encGain`: the gain table and its fallback 2 (R150). -/
def encGain (g : U16) : U2 :=
  if g = 5 then 0
  else if g = 10 then 1
  else if g = 20 then 2
  else if g = 40 then 3
  else 2

/-- `encDeadTime`: the dead-time table in nanoseconds and its fallback 3 (R155). -/
def encDeadTime (t : U16) : U2 :=
  if t = 400 then 0
  else if t = 450 then 1
  else if t = 650 then 2
  else if t = 850 then 3
  else 3

/-- `decMode`: codes 9 to 15 have no meaning (R181). -/
def decMode (c : U4) : Option U16 :=
  if c.toNat ≤ 8 then some (1#16 <<< c.toNat) else none

/-- `decGain` (R182). -/
def decGain (c : U2) : U16 :=
  if c = 0 then 5 else if c = 1 then 10 else if c = 2 then 20 else 40

/-- `decDeadTime` (R183). -/
def decDeadTime (c : U2) : U16 :=
  if c = 0 then 400 else if c = 1 then 450 else if c = 2 then 650 else 850

/-- The number of a fault reason (60_exceptions.md R200). -/
def FaultReason.code : FaultReason → Nat
  | .illegalCommand => 1
  | .notInitialized => 2
  | .alreadyInitialized => 3
  | .writeValueTooWide => 4

end Sys2Proof.Machine
end

