-- ==== Sys2Proof/Machine/Ops.lean ====
section
/-! DEFINITION. The named operations every meaning is made of: shadow access, the bus primitives (00_scope.md R15), the
transaction (40_transport.md R111 to R113), the common checks (R110), fault entry (60_exceptions.md R206), the setter's
write path (41_controller_ctrl.md R130), reset (70_reset_and_hazards.md R230 to R234), and serving the next input. -/

namespace Sys2Proof.Machine

/-- `x[r]` (R14). -/
def Shadow.get (x : Shadow) : ShadowReg → U16
  | .ctrl => x.ctrl
  | .torque => x.torque
  | .off => x.off
  | .blank => x.blank
  | .decay => x.decay
  | .status => x.status

/-- `x[r] <- v` (R14). -/
def Shadow.set (x : Shadow) (r : ShadowReg) (v : U16) : Shadow :=
  match r with
  | .ctrl => { x with ctrl := v }
  | .torque => { x with torque := v }
  | .off => { x with off := v }
  | .blank => { x with blank := v }
  | .decay => { x with decay := v }
  | .status => { x with status := v }

/-- `x[r] <- v` in the state. -/
def setShadow (r : ShadowReg) (v : U16) (s : State) : State :=
  { s with shadow := s.shadow.set r v }

/-- `raise Fault(reason)`: record the reason, the word and the pc, and change nothing else (R17, R206). -/
def raiseFault (reason : FaultReason) (w : U32) (s : State) : Result :=
  .next { s with fault := some { reason := reason, word := w, atPc := s.pc } }

/-- A block with a fault recorded takes no step (R110, R206). -/
def whenRunning (s : State) (run : Result) : Result :=
  if s.fault.isSome then .next s else run

/-- The check of R110 for every command but INIT and READ_SHADOW, and for bare frames (notes/assumptions/3.md). -/
def whenInitialized (w : U32) (s : State) (run : Result) : Result :=
  whenRunning s (if s.initialized then run else raiseFault .notInitialized w s)

/-- The end of a command: the response port and `pc` (R17, R32, R33). -/
def complete (resp : Option U16) (s : State) : Result :=
  .next { s with resp := resp, pc := s.pc + 1 }

/-- One bus event happens: it is appended to the trace, the chip-select level follows (R15), an exchange takes a draw
(R60), and the device reacts (R62, R65). -/
def observe (e : BusEvent) (s : State) : State :=
  match e with
  | .bind _ => { s with trace := s.trace ++ [e] }
  | .csAssert => { s with trace := s.trace ++ [e], cs := .asserted }
  | .csDeassert =>
    { s with trace := s.trace ++ [e], cs := .deasserted, dev := devOnDeassert s.dev s.pendingLatch, pendingLatch := none }
  | .xfer out _ =>
    { s with trace := s.trace ++ [e], draws := s.draws + 1, pendingLatch := latchOnXfer s.cs out s.pendingLatch }
  | .reset =>
    { s with
      trace := s.trace ++ [e], cs := .unbound,
      dev := devOnCut s.phase s.dev s.pendingLatch, pendingLatch := latchOnCut s.phase s.pendingLatch }

/-- `phase` after an event of a transaction (R30, R113). -/
def phaseAfter (p : Phase) : BusEvent → Phase
  | .bind _ => p
  | .csAssert => .selected
  | .xfer _ _ => .exchanged
  | .csDeassert => .idle
  | .reset => .idle

/-- One bus event of a transaction: the event and the phase it leaves (R113). -/
def advance (s : State) (e : BusEvent) : State :=
  { observe e s with phase := phaseAfter s.phase e }

/-- The word the next exchange returns: a free value (R60). -/
def nextDraw (s : State) : U16 := Config.busDraw s.draws

/-- `Transact(out)`: assert, one exchange, deassert (R113). -/
def transact (out : U16) (s : State) : State :=
  advance (advance (advance s .csAssert) (.xfer out (nextDraw s))) .csDeassert

/-- `MemRead(a, 16)` continued by `k` with the 16 bits received, unmasked (R111). -/
def memRead (a : U3) (s : State) (k : U16 → State → Result) : Result :=
  k (nextDraw s) (transact (readFrameWord a) s)

/-- A value `MemWrite` does not send: any of bits 15 to 12 set (R112). -/
def tooWide (v : U16) : Bool := v.extractLsb' 12 4 != 0

/-- `MemWrite(a, 16, v)` and the end of the command (R112, R118, R130): the width check comes before any change, so a
faulting command changes nothing else (R206); `prepare` is the setter's shadow update. -/
def memWrite (w : U32) (a : U3) (v : U16) (prepare : State → State) (s : State) : Result :=
  if tooWide v then raiseFault .writeValueTooWide w s
  else complete none (transact (writeFrameWord a v) (prepare s))

/-- A controller setter: R110's checks, then `SetterWrite(r, new)` (R130). -/
def setter (i : Instr) (r : ShadowReg) (new : U16) (s : State) : Result :=
  whenInitialized i.word s (memWrite i.word r.addr new (setShadow r new) s)

/-- Reset of the block (R230, R231): `RESET` is the last event of the trace, and only the environment and the model's own
fields are kept. It is also the one return from a fault (R207). -/
def blockReset (s : State) : State :=
  { observe .reset s with
    shadow := Shadow.reset
    initialized := false
    line := none
    phase := .idle
    pc := 0
    resp := none
    fault := none }

/-- The bus events a command emitted between `s` and `t`. -/
def emitted (s t : State) : List BusEvent := t.trace.drop s.trace.length

/-- Reset in the middle of a command (R234): of the events the whole command emits between `s` and `t`, the first `k`
happen, and then the block is reset. -/
def cutByReset (k : Nat) (s t : State) : State :=
  blockReset (((emitted s t).take k).foldl advance s)

/-- Power-on of block and device at once (R216, R233); the parameter, the draw counter and what the host does next are
kept (notes/assumptions/12.md). -/
def powerCycle (s : State) : State :=
  { State.reset with disableClearsAll := s.disableClearsAll, draws := s.draws, inputs := s.inputs }

/-- A reset of the device alone (R71): its registers go to their defaults (R61) and the block sees nothing. -/
def deviceReset (s : State) : State :=
  { s with dev := devDefaults, pendingLatch := none }

/-- The device clears its STEP bit (R64): the block sees nothing, and the shadow's bit 2 stays as it is (R71, R242). -/
def stepSelfClear (s : State) : State :=
  { s with dev := devOnSelfClear s.dev }

/-- A word that does not decode: `IllegalCommand` for a command word (R110, R201); a bare word that is no frame stops the
model (R93). -/
def illegalPacket (p : Packet) (s : State) : Result :=
  match p with
  | .command w => whenRunning s (raiseFault .illegalCommand w s)
  | .frame _ => whenRunning s (.fault .frameNeverSent)

/-- One step of the block on a packet (R110): decode it and run its rule. -/
def runPacket (ex : Instr → State → Result) (p : Packet) (s : State) : Result :=
  match decode p with
  | .instr i => ex i s
  | .illegal _ => illegalPacket p s

/-- What one input does. -/
def respondTo (ex : Instr → State → Result) (inp : Input) (s : State) : Result :=
  match inp with
  | .issue p => runPacket ex p s
  | .issueCut p k =>
    match runPacket ex p s with
    | .next t => .next (cutByReset k s t)
    | .fault r => .fault r
    | .refused r => .refused r
  | .blockReset => .next (blockReset s)
  | .powerCycle => .next (powerCycle s)
  | .deviceReset => .next (deviceReset s)
  | .stepSelfClear => .next (stepSelfClear s)

/-- Take the next input and serve it; with none, the block waits for the host (R232). -/
def serve (ex : Instr → State → Result) (s : State) : Result :=
  match s.inputs with
  | [] => .next s
  | inp :: rest => respondTo ex inp { s with inputs := rest }

/-- Put a packet in front of everything the host does next. -/
def present (p : Packet) (s : State) : State :=
  { s with inputs := .issue p :: s.inputs }

end Sys2Proof.Machine
end

