-- ==== Sys2Proof/Machine/CtrlSetters.lean ====
section
/-! DEFINITION. The nine controller commands on CTRL (41_controller_ctrl.md R135 to R156). Each gives `SetterWrite` the
whole new register value (R130). -/

namespace Sys2Proof.Machine

/-- ENABLE (R135). -/
def execEnable (s : State) : Result :=
  setter .enable .ctrl (s.shadow.ctrl ||| 0x0001) s

/-- DISABLE (R136): clear bit 0, or the whole register under `disableClearsAll`. -/
def execDisable (s : State) : Result :=
  setter .disable .ctrl (if s.disableClearsAll then 0x0000 else s.shadow.ctrl &&& ~~~0x0001) s

/-- FLIP_DIR (R137). -/
def execFlipDir (s : State) : Result :=
  setter .flipDir .ctrl (s.shadow.ctrl ^^^ 0x0002) s

/-- STEP (R138): the shadow bit stays set. -/
def execStep (s : State) : Result :=
  setter .step .ctrl (s.shadow.ctrl ||| 0x0004) s

/-- SET_STEP_MODE (R141). -/
def execSetStepMode (m : U16) (s : State) : Result :=
  setter (.setStepMode m) .ctrl (merge s.shadow.ctrl ctrlMode ((encMode m).setWidth 16)) s

/-- SET_EXT_STALL (R145). -/
def execSetExtStall (s : State) : Result :=
  setter .setExtStall .ctrl (s.shadow.ctrl ||| 0x0080) s

/-- SET_INT_STALL (R146). -/
def execSetIntStall (s : State) : Result :=
  setter .setIntStall .ctrl (s.shadow.ctrl &&& ~~~0x0080) s

/-- SET_GAIN (R151). -/
def execSetGain (g : U16) (s : State) : Result :=
  setter (.setGain g) .ctrl (merge s.shadow.ctrl ctrlGain ((encGain g).setWidth 16)) s

/-- SET_DEAD_TIME (R156). -/
def execSetDeadTime (t : U16) (s : State) : Result :=
  setter (.setDeadTime t) .ctrl (merge s.shadow.ctrl ctrlDtime ((encDeadTime t).setWidth 16)) s

end Sys2Proof.Machine
end

