-- ==== Sys2Proof/Machine/RegSetters.lean ====
section
/-! DEFINITION. The controller commands on TORQUE and OFF, and READ_SHADOW (42_controller_regs.md R170 to R175). -/

namespace Sys2Proof.Machine

/-- SET_TORQUE (R170): bits 15 to 8 are kept. -/
def execSetTorque (v : U8) (s : State) : Result :=
  setter (.setTorque v) .torque (merge s.shadow.torque torqueVal (v.setWidth 16)) s

/-- SET_OFF_TIME (R171): `OFF.PWM` is kept. -/
def execSetOffTime (v : U8) (s : State) : Result :=
  setter (.setOffTime v) .off (merge s.shadow.off offToff (v.setWidth 16)) s

/-- SET_PWM_MODE (R172): a toggle; `mode` is not read but for the word a fault records. -/
def execSetPwmMode (mode : U16) (s : State) : Result :=
  setter (.setPwmMode mode) .off (s.shadow.off ^^^ 0x0100) s

/-- READ_SHADOW (R175): INIT is not required and nothing goes to the bus. An address without a shadow has no command word
that decodes; given one all the same, it is the illegal command of R201 (notes/assumptions/15.md). -/
def execReadShadow (a : U3) (s : State) : Result :=
  whenRunning s
    (match shadowAt a with
     | some r => complete (some (s.shadow.get r)) s
     | none => raiseFault .illegalCommand (Instr.readShadow a).word s)

end Sys2Proof.Machine
end

