-- ==== Sys2Proof/Machine/Transport.lean ====
section
/-! DEFINITION. The transport family: INIT, READ and WRITE (40_transport.md R116 to R118), and the two frames the
transport shifts (30_encoding.md R90, R91; 40_transport.md R113). -/

namespace Sys2Proof.Machine

/-- INIT (R116): bind the line, drive it inactive, record both. -/
def execInit (line : U16) (s : State) : Result :=
  whenRunning s
    (if s.initialized then raiseFault .alreadyInitialized (Instr.init line).word s
     else complete none { observe .csDeassert (observe (.bind line) s) with initialized := true, line := some line })

/-- READ (R117): one read transaction; the response is the 16 bits received. -/
def execRead (a : U3) (s : State) : Result :=
  whenInitialized (Instr.read a).word s (memRead a s (fun r t => complete (some r) t))

/-- WRITE (R118): one write transaction; no shadow changes, and a value of 0x1000 or more faults. -/
def execWrite (a : U3) (v : U16) (s : State) : Result :=
  whenInitialized (Instr.write a v).word s (memWrite (Instr.write a v).word a v id s)

/-- READ_FRAME (R90): the transaction of a read frame, with no command around it: the response port and `pc` are a
command's and stay (notes/assumptions/3.md). -/
def execReadFrame (a : U3) (s : State) : Result :=
  whenInitialized (Instr.readFrame a).word s (.next (transact (readFrameWord a) s))

/-- WRITE_FRAME (R91): the transaction of a write frame, with no command around it (notes/assumptions/3.md). -/
def execWriteFrame (a : U3) (d : U12) (s : State) : Result :=
  whenInitialized (Instr.writeFrame a d).word s (.next (transact (writeFrameWord a (d.setWidth 16)) s))

end Sys2Proof.Machine
end

