-- ==== Sys2Proof/Machine/Dispatch.lean ====
section
/-! DEFINITION. The meaning of each instruction, one arm per constructor. -/

namespace Sys2Proof.Machine

open Sys2Proof

def exec (i : Instr) (s : State) : Host.Outcome State Fault Refusal :=
  match i with
  | .init line => Sys2Proof.Machine.execInit line s
  | .read a => Sys2Proof.Machine.execRead a s
  | .write a v => Sys2Proof.Machine.execWrite a v s
  | .enable => Sys2Proof.Machine.execEnable s
  | .disable => Sys2Proof.Machine.execDisable s
  | .flipDir => Sys2Proof.Machine.execFlipDir s
  | .step => Sys2Proof.Machine.execStep s
  | .setStepMode m => Sys2Proof.Machine.execSetStepMode m s
  | .setExtStall => Sys2Proof.Machine.execSetExtStall s
  | .setIntStall => Sys2Proof.Machine.execSetIntStall s
  | .setGain g => Sys2Proof.Machine.execSetGain g s
  | .setDeadTime t => Sys2Proof.Machine.execSetDeadTime t s
  | .setTorque v => Sys2Proof.Machine.execSetTorque v s
  | .setOffTime v => Sys2Proof.Machine.execSetOffTime v s
  | .setPwmMode mode => Sys2Proof.Machine.execSetPwmMode mode s
  | .readShadow a => Sys2Proof.Machine.execReadShadow a s
  | .readFrame a => Sys2Proof.Machine.execReadFrame a s
  | .writeFrame a d => Sys2Proof.Machine.execWriteFrame a d s

end Sys2Proof.Machine
end

