-- ==== Sys2Proof/Machine/Step.lean ====
section
/-! DEFINITION. One step of the machine: serve the next input (40_transport.md R110, 70_reset_and_hazards.md R230 to R234).
The work is in Ops.lean; here it is given `exec`. -/

namespace Sys2Proof.Machine

/-- One step. -/
def step (s : State) : Host.Outcome State Fault Refusal := serve exec s

/-- `s` with the packet of a table word as the next thing the host gives the block (notes/assumptions/2.md). -/
def State.withFetchWord (s : State) (nbits w : Nat) : State := present (tablePacket nbits w) s

end Sys2Proof.Machine
end

