-- ==== Sys2Proof/Machine/Assembler.lean ====
section
/-! DEFINITION. The assembler form of a command (30_encoding.md R95): a mnemonic and its operands. A number's spelling
(decimal or hexadecimal) is left to the reader of the text: here it is the number (notes/assumptions/20.md). -/

namespace Sys2Proof.Machine

/-- An operand: a number, or the name of a register (R95). -/
inductive AsmOperand where
  | num (n : Nat)
  | reg (r : ShadowReg)
  deriving DecidableEq, Repr

/-- An address operand: `0` to `7`, or a register name (R95). -/
def asmAddr : AsmOperand → Option U3
  | .num n => if n < 8 then some (BitVec.ofNat 3 n) else none
  | .reg r => some r.addr

/-- A value operand: at most 0xFFFF (R95). -/
def asmWord : AsmOperand → Option U16
  | .num n => if n ≤ 0xFFFF then some (BitVec.ofNat 16 n) else none
  | .reg _ => none

/-- A value operand of SET_TORQUE or SET_OFF_TIME: at most 0xFF (R95). -/
def asmByte : AsmOperand → Option U8
  | .num n => if n ≤ 0xFF then some (BitVec.ofNat 8 n) else none
  | .reg _ => none

/-- The command a line stands for, if it is one of R95's forms; the frames have no assembler form. -/
def assemble (mnemonic : String) (ops : List AsmOperand) : Option Instr :=
  match mnemonic, ops with
  | "INIT", [x] => (asmWord x).map .init
  | "READ", [x] => (asmAddr x).map .read
  | "WRITE", [x, y] => (asmAddr x).bind (fun a => (asmWord y).map (.write a))
  | "ENABLE", [] => some .enable
  | "DISABLE", [] => some .disable
  | "FLIP_DIR", [] => some .flipDir
  | "STEP", [] => some .step
  | "SET_STEP_MODE", [x] => (asmWord x).map .setStepMode
  | "SET_EXT_STALL", [] => some .setExtStall
  | "SET_INT_STALL", [] => some .setIntStall
  | "SET_GAIN", [x] => (asmWord x).map .setGain
  | "SET_DEAD_TIME", [x] => (asmWord x).map .setDeadTime
  | "SET_TORQUE", [x] => (asmByte x).map .setTorque
  | "SET_OFF_TIME", [x] => (asmByte x).map .setOffTime
  | "SET_PWM_MODE", [x] => (asmWord x).map .setPwmMode
  | "READ_SHADOW", [x] => (asmAddr x).bind (fun a => if hasShadow a then some (.readShadow a) else none)
  | _, _ => none

end Sys2Proof.Machine
end

