-- ==== Sys2Proof/Machine/Wire.lean ====
section
/-! DEFINITION. What the block asks of the bus and pin capabilities (20_memory.md R55, R56; 00_scope.md R11, R15): the
order of a frame's bits on the wire, its split into bytes, and the physical chip-select level. -/

namespace Sys2Proof.Machine

/-- The bits of an outgoing word in the order they are shifted: bit 15 first, bit 0 last (R55). -/
def wireBits (w : U16) : List Bool := (List.range 16).map (fun i => w.getLsbD (15 - i))

/-- One more received bit: it becomes the lowest, those before it move up (R55). -/
def shiftIn (acc : U16) (b : Bool) : U16 := (acc <<< 1) ||| (BitVec.ofBool b).setWidth 16

/-- The received word: the first bit received becomes bit 15 (R55). -/
def ofWireBits (bits : List Bool) : U16 := bits.foldl shiftIn 0

/-- The two 8-bit units of a frame, the first one sent first: the high byte (R55). -/
def frameBytes (w : U16) : U8 × U8 := (w.extractLsb' 8 8, w.extractLsb' 0 8)

/-- The received bytes joined the same way (R55). -/
def joinBytes (first second : U8) : U16 := first ++ second

/-- The other level. -/
def oppositeLevel : Level → Level
  | .high => .low
  | .low => .high

/-- The physical level of the chip-select line when `Asserted` is the level `active`; an unbound line's is not known
(R11, R29, U17). -/
def physicalLevel (active : Level) : ChipSelect → Option Level
  | .unbound => none
  | .deasserted => some (oppositeLevel active)
  | .asserted => some active

/-- The level this hardware's select line is driven to (R10, R11). -/
def lineLevel (cs : ChipSelect) : Option Level := physicalLevel Config.csActiveLevel cs

end Sys2Proof.Machine
end

