-- ==== Sys2Proof/Safety.lean ====
section
/-! DEFINITION. What counts as a safe run, and the terms the claims use: when a command runs, the invariants of the
block, the next states the rules give, and the device properties a claim may take as hypotheses. -/

namespace Sys2Proof.Safety

open Sys2Proof.Machine

/-! ## When a command runs -/

/-- The conditions of 40_transport.md R110 under which a transport or controller command runs its rule. -/
abbrev Ready (s : State) : Prop := s.fault = none ∧ s.initialized = true

/-- Bits 15 to 12 are 0 (10_state.md R27). -/
abbrev Narrow (v : U16) : Prop := v.extractLsb' 12 4 = 0

/-- Every shadow register has bits 15 to 12 equal to 0: the invariant of 10_state.md R27. -/
abbrev ShadowNarrow (s : State) : Prop :=
  Narrow s.shadow.ctrl ∧ Narrow s.shadow.torque ∧ Narrow s.shadow.off ∧
    Narrow s.shadow.blank ∧ Narrow s.shadow.decay ∧ Narrow s.shadow.status

/-- The host gives the block the command word `w` and the machine takes one step. -/
def issue (w : U32) (s : State) : Result := step (present (.command w) s)

/-- The initialised block of spec/95_test_vectors.md: power-on, then `INIT 1`. -/
def initialisedBlock : State :=
  { State.reset with
    initialized := true
    line := some 1
    cs := .deasserted
    trace := [.reset, .bind 1, .csDeassert]
    pc := 1 }

/-! ## The next states the rules give -/

/-- The three events of one transaction (40_transport.md R114). -/
def bracket (out inn : U16) : List BusEvent := [.csAssert, .xfer out inn, .csDeassert]

/-- `{1, a[2:0], 0x000}` (30_encoding.md R90). -/
def readBits (a : U3) : U16 := 1#1 ++ a ++ 0#12

/-- `{0, a[2:0], v[11:0]}` (30_encoding.md R91). -/
def writeBits (a : U3) (v : U16) : U16 := 0#1 ++ a ++ v.extractLsb' 0 12

/-- The state after one transaction that sent `out`, the device's register space being `dev` after it. -/
def afterFrame (out : U16) (dev : Memory) (s : State) : State :=
  { s with
    cs := .deasserted
    phase := .idle
    trace := s.trace ++ bracket out (Config.busDraw s.draws)
    draws := s.draws + 1
    dev := dev
    pendingLatch := none }

/-- After the read frame of `a`; a latch left over from before is applied at the deassert (20_memory.md R62), and there is
none in a state that meets `BusInv`. -/
def afterReadFrame (a : U3) (s : State) : State :=
  afterFrame (readBits a) (devOnDeassert s.dev s.pendingLatch) s

/-- After the write frame of `v` to `a`. -/
def afterWriteFrame (a : U3) (v : U16) (s : State) : State :=
  afterFrame (writeBits a v) (devOnDeassert s.dev (some (a, v.extractLsb' 0 12))) s

/-- After a command with the response `resp` (10_state.md R32, R33). -/
def afterCommand (resp : Option U16) (s : State) : State :=
  { s with resp := resp, pc := s.pc + 1 }

/-- After a controller setter that writes `new` to `r` (41_controller_ctrl.md R130). -/
def afterSetter (r : ShadowReg) (new : U16) (s : State) : State :=
  afterCommand none { afterWriteFrame r.addr new s with shadow := s.shadow.set r new }

/-- After a fault: only the record is new (60_exceptions.md R206). -/
def afterFault (reason : FaultReason) (w : U32) (s : State) : State :=
  { s with fault := some { reason := reason, word := w, atPc := s.pc } }

/-! ## The shape of a command's encoding and of a setter's rule -/

/-- The words of one command: those that match under the mask and are not excluded decode to it, and every other word with
its opcode raises `IllegalCommand` (30_encoding.md R81, R82, 60_exceptions.md R201). -/
def EncodedAs (opc : U8) (value mask : U32) (excluded : List U32) (ofWord : U32 → Instr) : Prop :=
  (∀ w : U32, w &&& mask = value → w ∉ excluded →
    decode (.command w) = .instr (ofWord w) ∧ encode (ofWord w) = .command w) ∧
  (∀ (w : U32) (s : State), w.extractLsb' 24 8 = opc → (w &&& mask ≠ value ∨ w ∈ excluded) → s.fault = none →
    issue w s = .next (afterFault .illegalCommand w s))

/-- Words with an operand field that R81 says must be 0, by opcode: `A`. -/
def aMustBeZero (opc : U8) : Bool := opc != 0x01 && opc != 0x02 && opc != 0x0F

/-- The same for all of `D`. -/
def dMustBeZero (opc : U8) : Bool :=
  opc == 0x01 || opc == 0x03 || opc == 0x04 || opc == 0x05 || opc == 0x06 || opc == 0x08 || opc == 0x09 || opc == 0x0F

/-- The same for `D[15:8]`. -/
def dHighMustBeZero (opc : U8) : Bool := opc == 0x0C || opc == 0x0D

/-- The illegal command words (30_encoding.md R84). -/
def IllegalWord (w : U32) : Prop :=
  let opc : U8 := w.extractLsb' 24 8
  let a : U3 := w.extractLsb' 16 3
  w.extractLsb' 19 5 ≠ (0 : BitVec 5) ∨ 0x10 ≤ opc.toNat ∨
    (aMustBeZero opc = true ∧ a ≠ 0) ∨
    (dMustBeZero opc = true ∧ w.extractLsb' 0 16 ≠ (0 : U16)) ∨
    (dHighMustBeZero opc = true ∧ w.extractLsb' 8 8 ≠ (0 : U8)) ∨
    (opc = 0x0F ∧ (a = 5 ∨ a = 6))

/-- Before INIT a command raises `NotInitialized` (60_exceptions.md R202). -/
def NeedsInit (i : Instr) : Prop :=
  ∀ s : State, s.fault = none → s.initialized = false →
    ∃ w, encode i = .command w ∧ exec i s = .next (afterFault .notInitialized w s)

/-- A setter of `r` completes with the shadow value `new` and one write frame of it. -/
def SetsTo (i : Instr) (r : ShadowReg) (new : State → U16) : Prop :=
  ∀ s : State, Ready s → ShadowNarrow s → exec i s = .next (afterSetter r (new s) s)

/-- On the initialised block the setter writes `new` to `r` and sends the frame `frame`. -/
def ExampleSetter (i : Instr) (r : ShadowReg) (new frame : U16) : Prop :=
  ∃ t, exec i initialisedBlock = .next t ∧ t.shadow.get r = new ∧
    t.trace = initialisedBlock.trace ++ bracket frame (Config.busDraw 0)

/-! ## The assembler form (30_encoding.md R95) -/

/-- `(OPC << 24) | (A << 16) | D`. -/
def lineWord (opc a d : Nat) : U32 := (BitVec.ofNat 32 opc <<< 24) ||| (BitVec.ofNat 32 a <<< 16) ||| BitVec.ofNat 32 d

/-- The number of an address operand: itself, or the number R95 gives the name. -/
def addressNumber : AsmOperand → Nat
  | .num n => n
  | .reg .ctrl => 0
  | .reg .torque => 1
  | .reg .off => 2
  | .reg .blank => 3
  | .reg .decay => 4
  | .reg .status => 7

/-- The line assembles to the instruction, whose word is made of these fields. -/
def AssemblesTo (m : String) (ops : List AsmOperand) (i : Instr) (opc a d : Nat) : Prop :=
  assemble m ops = some i ∧ encode i = .command (lineWord opc a d)

/-- The form `m n`: a number up to `max` is the operand, in `D`; a larger number or a name does not assemble. -/
def ValueForm (m : String) (opc max : Nat) (ofNumber : Nat → Instr) : Prop :=
  (∀ n, n ≤ max → AssemblesTo m [.num n] (ofNumber n) opc 0 n) ∧
  (∀ n, max < n → assemble m [.num n] = none) ∧
  (∀ r, assemble m [.reg r] = none)

/-- The form `m addr`: a legal address is the operand, in `A`; any other number does not assemble. -/
def AddressForm (m : String) (opc : Nat) (legal : Nat → Prop) (ofAddress : U3 → Instr) : Prop :=
  (∀ x, legal (addressNumber x) →
    AssemblesTo m [x] (ofAddress (BitVec.ofNat 3 (addressNumber x))) opc (addressNumber x) 0) ∧
  (∀ x, ¬ legal (addressNumber x) → assemble m [x] = none)

/-- The sixteen mnemonics, each with its number of operands (R81, R95). -/
def operandCounts : List (String × Nat) :=
  [("INIT", 1), ("READ", 1), ("WRITE", 2), ("ENABLE", 0), ("DISABLE", 0), ("FLIP_DIR", 0), ("STEP", 0),
    ("SET_STEP_MODE", 1), ("SET_EXT_STALL", 0), ("SET_INT_STALL", 0), ("SET_GAIN", 1), ("SET_DEAD_TIME", 1),
    ("SET_TORQUE", 1), ("SET_OFF_TIME", 1), ("SET_PWM_MODE", 1), ("READ_SHADOW", 1)]

/-! ## The controller as a table (42_controller_regs.md R185) -/

/-- The register a setter writes and its new shadow, by the summary table of R185. -/
def setterTable (x : Shadow) (clearsAll : Bool) : Instr → Option (ShadowReg × U16)
  | .enable => some (.ctrl, x.ctrl ||| 0x0001)
  | .disable => some (.ctrl, if clearsAll then 0x0000 else x.ctrl &&& 0xFFFE)
  | .flipDir => some (.ctrl, x.ctrl ^^^ 0x0002)
  | .step => some (.ctrl, x.ctrl ||| 0x0004)
  | .setStepMode m => some (.ctrl, (x.ctrl &&& 0xFF87) ||| ((encMode m).setWidth 16 <<< 3))
  | .setExtStall => some (.ctrl, x.ctrl ||| 0x0080)
  | .setIntStall => some (.ctrl, x.ctrl &&& 0xFF7F)
  | .setGain g => some (.ctrl, (x.ctrl &&& 0xFCFF) ||| ((encGain g).setWidth 16 <<< 8))
  | .setDeadTime t => some (.ctrl, (x.ctrl &&& 0xF3FF) ||| ((encDeadTime t).setWidth 16 <<< 10))
  | .setTorque v => some (.torque, (x.torque &&& 0xFF00) ||| v.setWidth 16)
  | .setOffTime v => some (.off, (x.off &&& 0xFF00) ||| v.setWidth 16)
  | .setPwmMode _ => some (.off, x.off ^^^ 0x0100)
  | .init _ => none
  | .read _ => none
  | .write _ _ => none
  | .readShadow _ => none
  | .readFrame _ => none
  | .writeFrame _ _ => none

/-- The register a setter targets. -/
def targetOf (i : Instr) : Option ShadowReg :=
  (setterTable Shadow.reset false i).map (fun p => p.1)

/-- The field a setter writes (10_state.md R22 to R24). -/
def fieldWritten : Instr → Option BitField
  | .enable => some ctrlEn
  | .disable => some ctrlEn
  | .flipDir => some ctrlDir
  | .step => some ctrlStep
  | .setStepMode _ => some ctrlMode
  | .setExtStall => some ctrlExstall
  | .setIntStall => some ctrlExstall
  | .setGain _ => some ctrlGain
  | .setDeadTime _ => some ctrlDtime
  | .setTorque _ => some torqueVal
  | .setOffTime _ => some offToff
  | .setPwmMode _ => some offPwm
  | .init _ => none
  | .read _ => none
  | .write _ _ => none
  | .readShadow _ => none
  | .readFrame _ => none
  | .writeFrame _ _ => none

/-- A transport command, READ_SHADOW or a bare frame: it writes no shadow (10_state.md R21). -/
def keepsShadow (i : Instr) : Bool := (targetOf i).isNone

/-- The instruction is one of the sixteen commands (00_scope.md R4), not a bare frame. -/
def isCommand : Instr → Bool
  | .readFrame _ => false
  | .writeFrame _ _ => false
  | .init _ => true
  | .read _ => true
  | .write _ _ => true
  | .enable => true
  | .disable => true
  | .flipDir => true
  | .step => true
  | .setStepMode _ => true
  | .setExtStall => true
  | .setIntStall => true
  | .setGain _ => true
  | .setDeadTime _ => true
  | .setTorque _ => true
  | .setOffTime _ => true
  | .setPwmMode _ => true
  | .readShadow _ => true

/-! ## Faults and their order (60_exceptions.md R205) -/

/-- The fault the command `i` raises, if any, in the order of R205 after decoding. -/
def commandFault (i : Instr) (s : State) : Option FaultReason :=
  match i with
  | .init _ => if s.initialized then some .alreadyInitialized else none
  | .readShadow _ => none
  | .write _ v =>
    if s.initialized = false then some .notInitialized
    else if v.extractLsb' 12 4 ≠ 0 then some .writeValueTooWide else none
  | _ => if s.initialized = false then some .notInitialized else none

/-- The fault the command word `w` raises, if any (R205). -/
def wordFault (w : U32) (s : State) : Option FaultReason :=
  match decode (.command w) with
  | .illegal _ => some .illegalCommand
  | .instr i => commandFault i s

/-! ## Invariants -/

/-- The shadow: every register narrow, and BLANK, DECAY and STATUS at their reset values (10_state.md R25, R26, R27). -/
abbrev ShadowInv (s : State) : Prop :=
  ShadowNarrow s ∧ s.shadow.blank = 0x0080 ∧ s.shadow.decay = 0x0110 ∧ s.shadow.status = 0x0000

/-- Where a reader of the bus trace stands: no line bound, INIT under way, or a bound line with no bracket open, one open,
or one open with its exchange done. -/
inductive BusPoint where
  | unbound
  | binding
  | ready
  | selected
  | exchanged
  deriving DecidableEq, Repr

/-- The bit pattern of a read frame (match 0x8000, mask 0x8FFF) or of a write frame (match 0, mask 0x8000) (R90, R91). -/
def legalFrame (f : U16) : Bool := f &&& 0x8FFF == 0x8000 || f &&& 0x8000 == 0

/-- The protocol of the bus: one bind after each reset and then the first deassert (R116), brackets of exactly one exchange
of a legal frame (R113, R114, R93), and a reset at any point (R234). -/
def busNext (p : BusPoint) (e : BusEvent) : Option BusPoint :=
  match p, e with
  | .unbound, .bind _ => some .binding
  | .binding, .csDeassert => some .ready
  | .ready, .csAssert => some .selected
  | .selected, .xfer out _ => if legalFrame out then some .exchanged else none
  | .exchanged, .csDeassert => some .ready
  | _, .reset => some .unbound
  | _, _ => none

/-- Read a whole trace. -/
def busScan : BusPoint → List BusEvent → Option BusPoint
  | p, [] => some p
  | p, e :: es =>
    match busNext p e with
    | some q => busScan q es
    | none => none

/-- The transport between commands: chip-select and line agree with `initialized`, no transaction is open, and the trace
follows the bus protocol (10_state.md R28, R29, R30; 40_transport.md R114). -/
abbrev BusInv (s : State) : Prop :=
  s.phase = .idle ∧ s.pendingLatch = none ∧
    s.cs = (if s.initialized then .deasserted else .unbound) ∧
    s.line.isSome = s.initialized ∧
    busScan .unbound s.trace = some (if s.initialized then .ready else .unbound)

/-- The device's register space: in canonical form, nothing known of 0x5, 0x6 and 0x7, no value of more than 12 bits, and
no write latched (20_memory.md R61, R62). -/
abbrev DeviceInv (s : State) : Prop :=
  Memory.wf s.dev = true ∧ s.dev.all (fun c => decide (c.1 ≤ 4) && decide (c.2.extractLsb' 12 4 = 0)) = true ∧
    s.pendingLatch = none

/-- A recorded fault was raised at the command the block is halted at (10_state.md R32, R34). -/
abbrev FaultInv (s : State) : Prop := ∀ r ∈ s.fault, r.atPc = s.pc

/-- The device's registers 0x0 to 0x4 hold what the shadows hold (20_memory.md R71). -/
abbrev Mirrored (s : State) : Prop :=
  Memory.read s.dev 0 = some s.shadow.ctrl ∧ Memory.read s.dev 1 = some s.shadow.torque ∧
    Memory.read s.dev 2 = some s.shadow.off ∧ Memory.read s.dev 3 = some s.shadow.blank ∧
    Memory.read s.dev 4 = some s.shadow.decay

/-- `Mirrored` with no write latched and no STEP since the bit was last cleared: bit 2 of CTRL is clear on both sides, so
the device has nothing to clear (20_memory.md R64, 70_reset_and_hazards.md R242). -/
abbrev MirrorInv (s : State) : Prop :=
  Mirrored s ∧ s.shadow.ctrl.getLsbD 2 = false ∧ s.pendingLatch = none

/-- Device and shadow after a STEP: `Mirrored` with no write latched, but that the device may have cleared bit 2 of its
CTRL register (20_memory.md R64, R71; notes/assumptions/6.md). -/
abbrev MirrorButStep (s : State) : Prop :=
  (Memory.read s.dev 0 = some s.shadow.ctrl ∨ Memory.read s.dev 0 = some (s.shadow.ctrl &&& ~~~0x0004)) ∧
    Memory.read s.dev 1 = some s.shadow.torque ∧ Memory.read s.dev 2 = some s.shadow.off ∧
    Memory.read s.dev 3 = some s.shadow.blank ∧ Memory.read s.dev 4 = some s.shadow.decay ∧ s.pendingLatch = none

/-! ## Device properties a claim may take as a hypothesis (20_memory.md R63, R64, R66) -/

/-- The bits of a READ of `a` that `DeviceReadEcho` fixes when the device holds `v`: the low 12, but for bit 2 of CTRL
after a write that set it (`DeviceStepSelfClear`, R64) until the device has cleared it (`Input.stepSelfClear`). -/
def echoMask (a : U3) (v : U16) : U16 := if a = 0 ∧ v.getLsbD 2 then 0x0FFB else 0x0FFF

/-- `DeviceReadEcho` with `DeviceStepSelfClear`, for the next exchange being a READ of `a` (R63, R64): where the device's
register is known, the word received agrees with it on those bits. -/
def DeviceReadEcho (s : State) (a : U3) : Prop :=
  ∀ v, Memory.read s.dev a.toNat = some v →
    Config.busDraw s.draws &&& echoMask a v = v &&& echoMask a v

/-- `DeviceAtDefaults` (R66): the launch premise. -/
abbrev DeviceAtDefaults (s : State) : Prop := s.dev = devDefaults

/-! ## Whole-machine views -/

/-- The input resets the block (70_reset_and_hazards.md R230, R234, 60_exceptions.md R216). -/
def resetsBlock : Input → Bool
  | .issue _ => false
  | .issueCut _ _ => true
  | .blockReset => true
  | .powerCycle => true
  | .deviceReset => false
  | .stepSelfClear => false

/-- WRITE or a bare write frame: it changes the device and not the shadow (70_reset_and_hazards.md R241). -/
def isRawWrite (i : Instr) : Bool := i matches .write _ _ || i matches .writeFrame _ _

/-- The packet decodes to a raw write. -/
def packetWritesRaw (p : Packet) : Bool :=
  match decode p with
  | .instr i => isRawWrite i
  | .illegal _ => false

/-- The packet decodes to STEP. -/
def packetSteps (p : Packet) : Bool := decode p = .instr .step

/-- After this input device and shadow may differ in bits other than the STEP bit: a raw write, an interrupted command, or
a reset of one of the two without the other (20_memory.md R71, 70_reset_and_hazards.md R241, R243). -/
def partsRegisters : Input → Bool
  | .issue p => packetWritesRaw p
  | .issueCut _ _ => true
  | .blockReset => true
  | .powerCycle => false
  | .deviceReset => true
  | .stepSelfClear => false

/-- After this input the device's bit 2 of CTRL may differ from the shadow's: a STEP, whose bit the device clears at a time
the source does not give, and that clear (20_memory.md R64, R71). -/
def partsStepBit : Input → Bool
  | .issue p => packetSteps p
  | .issueCut p _ => packetSteps p
  | .blockReset => false
  | .powerCycle => false
  | .deviceReset => false
  | .stepSelfClear => true

/-- After this input device and shadow may differ: the whole list of 20_memory.md R71. -/
def mayDesynchronise (inp : Input) : Bool := partsRegisters inp || partsStepBit inp

/-- What the bus, the device and the history of the bus can never change in the block: everything of the block but the
response port (20_memory.md R60, 10_state.md R31, R37). -/
structure Control where
  shadow : Shadow
  initialized : Bool
  line : Option U16
  pc : Nat
  fault : Option FaultRecord
  deriving DecidableEq, Repr

/-- The control part of a state. -/
def controlOf (s : State) : Control :=
  { shadow := s.shadow, initialized := s.initialized, line := s.line, pc := s.pc, fault := s.fault }

/-- The block state right after reset but for the trace (10_state.md R39). -/
abbrev BlockAtReset (s : State) : Prop :=
  s.shadow = Shadow.reset ∧ s.initialized = false ∧ s.line = none ∧ s.cs = .unbound ∧ s.phase = .idle ∧
    s.resp = none ∧ s.fault = none ∧ s.pc = 0

end Sys2Proof.Safety
end

