-- ==== Sys2Proof/Certificates/Slice0/Obligations.lean ====
section
/-! DEFINITION. The statements for the provers, one per rule or group of rules of spec/. In the next states they give, the
device's registers move as 20_memory.md R62 says; that they stand in State at all is log entry 9. -/

open Sys2Proof Sys2Proof.Machine Sys2Proof.Safety

/-! ## Reset, the step, and encoding -/

/-- R39, R230, R231: what reset leaves, at power-on and by a reset of the block alone, which leaves the device alone. -/
def Obligations.ResetLeavesTheStatedValues : Prop :=
  (State.reset.shadow.ctrl = 0x0C10 ∧ State.reset.shadow.torque = 0x01FF ∧ State.reset.shadow.off = 0x0030 ∧
    State.reset.shadow.blank = 0x0080 ∧ State.reset.shadow.decay = 0x0110 ∧ State.reset.shadow.status = 0x0000 ∧
    State.reset.initialized = false ∧ State.reset.line = none ∧ State.reset.cs = .unbound ∧
    State.reset.phase = .idle ∧ State.reset.resp = none ∧ State.reset.fault = none ∧ State.reset.pc = 0 ∧
    State.reset.trace = [.reset]) ∧
  ∀ (s : State) (rest : List Input), s.inputs = .blockReset :: rest →
    ∃ t, step s = .next t ∧
      t.shadow.ctrl = 0x0C10 ∧ t.shadow.torque = 0x01FF ∧ t.shadow.off = 0x0030 ∧
      t.shadow.blank = 0x0080 ∧ t.shadow.decay = 0x0110 ∧ t.shadow.status = 0x0000 ∧
      t.initialized = false ∧ t.line = none ∧ t.cs = .unbound ∧ t.phase = .idle ∧ t.resp = none ∧
      t.fault = none ∧ t.pc = 0 ∧ t.trace = s.trace ++ [.reset] ∧ t.inputs = rest ∧
      (s.phase = .idle → t.dev = s.dev)

/-- R216, R233 and log entry 12: power-on of block and device; that the trace starts again is the model's reading of R39
(DEDUCED, log entry 12), and that nothing is latched then its choice (log entry 10). -/
def Obligations.PowerCycleRestoresBlockAndDevice : Prop :=
  (DeviceAtDefaults State.reset ∧ Mirrored State.reset) ∧
  ∀ (s : State) (rest : List Input), s.inputs = .powerCycle :: rest →
    ∃ t, step s = .next t ∧ BlockAtReset t ∧ t.trace = [.reset] ∧ DeviceAtDefaults t ∧ Mirrored t ∧
      t.pendingLatch = none ∧ t.inputs = rest

/-- R110: a step runs exactly the instruction that the packet in front decodes to. -/
def Obligations.StepRunsTheDecodedInstruction : Prop :=
  (∀ (s : State) (p : Packet) (i : Instr) (rest : List Input),
    s.inputs = .issue p :: rest → decode p = .instr i → step s = exec i { s with inputs := rest }) ∧
  (∀ (s : State) (nbits w : Nat) (i : Instr),
    decodeTableWord nbits w = some i → step (s.withFetchWord nbits w) = exec i s)

/-- R232: with no command from the host the block waits; that waiting is a step that changes nothing is the model's choice
(log entry 2). -/
def Obligations.BlockWaitsForTheHost : Prop :=
  ∀ s : State, s.inputs = [] → step s = .next s

/-- Words of spec/95_test_vectors.md 2.1 and of the tables of R81 and R92, one or more for each family. -/
def Obligations.SpecWordsDecode : Prop :=
  decode (.command 0x00000005) = .instr (.init 5) ∧
  decode (.command 0x01070000) = .instr (.read 7) ∧
  decode (.command 0x02030080) = .instr (.write 3 0x0080) ∧
  decode (.command 0x03000000) = .instr .enable ∧
  decode (.command 0x07000100) = .instr (.setStepMode 256) ∧
  decode (.command 0x0B000352) = .instr (.setDeadTime 850) ∧
  decode (.command 0x0C000080) = .instr (.setTorque 0x80) ∧
  decode (.command 0x0F000000) = .instr (.readShadow 0) ∧
  decode (.frame 0xF000) = .instr (.readFrame 7) ∧
  decode (.frame 0x3080) = .instr (.writeFrame 3 0x080)

/-- Decode and encode agree, for every instruction and every operand value. -/
def Obligations.DecodeOfEncode : Prop :=
  ∀ i : Instr, i.wellFormed = true → decode (encode i) = .instr i

/-- Each packet that decodes is the encoding of the one well-formed instruction it decodes to. -/
def Obligations.EncodeOfDecode : Prop :=
  ∀ (p : Packet) (i : Instr), decode p = .instr i → encode i = p ∧ i.wellFormed = true

/-- R84: exactly the words of its list are illegal, and every one faults. -/
def Obligations.IllegalWordsAreExactlyTheListed : Prop :=
  (∀ w : U32, (∃ why, decode (.command w) = .illegal why) ↔ IllegalWord w) ∧
  (∀ (w : U32) (s : State), IllegalWord w → s.fault = none → issue w s = .next (afterFault .illegalCommand w s))

/-- R90, R92: the read frame of every address. -/
def Obligations.ReadFrameCarriesTheAddress : Prop :=
  (∀ a : U3, readFrameWord a = (0b1000#16 ||| a.setWidth 16) <<< 12 ∧ readFrameWord a = readBits a ∧
    readFrameWord a &&& 0x8FFF = 0x8000 ∧ (readFrameWord a).getLsbD 12 = a.getLsbD 0) ∧
  (readFrameWord 0 = 0x8000 ∧ readFrameWord 1 = 0x9000 ∧ readFrameWord 2 = 0xA000 ∧ readFrameWord 3 = 0xB000 ∧
    readFrameWord 4 = 0xC000 ∧ readFrameWord 5 = 0xD000 ∧ readFrameWord 6 = 0xE000 ∧ readFrameWord 7 = 0xF000)

/-- R91: the write frame of every address and every value the block sends, and no frame for a wider value. -/
def Obligations.WriteFrameCarriesAddressAndValue : Prop :=
  (∀ (a : U3) (v : U16), Narrow v →
    writeFrameWord a v = (a.setWidth 16 <<< 12) ||| v ∧ writeFrameWord a v = writeBits a v ∧
      writeFrameWord a v &&& 0x8000 = 0) ∧
  (∀ (a : U3) (v : U16) (s t : State), ¬ Narrow v → exec (.write a v) s = .next t → t.trace = s.trace)

/-- R93: a word with bit 15 set and data bits not 0 is neither frame, and no exchange an instruction adds sends one. -/
def Obligations.EveryFrameSentIsLegal : Prop :=
  (∀ w : U16, w.getLsbD 15 = true → w.extractLsb' 0 12 ≠ (0 : U12) →
    (∀ a, w ≠ readFrameWord a) ∧ (∀ a v, Narrow v → w ≠ writeFrameWord a v)) ∧
  (∀ (i : Instr) (s t : State), exec i s = .next t →
    ∃ evs, t.trace = s.trace ++ evs ∧ ∀ out inn, BusEvent.xfer out inn ∈ evs →
      ¬ (out.getLsbD 15 = true ∧ out.extractLsb' 0 12 ≠ (0 : U12)))

/-- R114: the framing law. -/
def Obligations.EveryTransactionIsOneBracket : Prop :=
  ∀ (i : Instr) (s t : State), exec i s = .next t →
    t.trace = s.trace ∨
    (∃ l, i = .init l ∧ t.trace = s.trace ++ [.bind l, .csDeassert]) ∨
    (∃ out inn, t.trace = s.trace ++ bracket out inn ∧ t.cs = .deasserted)

/-! ## Transport commands and frames -/

/-- R116. The clause on `dev` and `pendingLatch` is not R116's: that the device sees INIT's deassert, applies what it had
latched (R62) and sees nothing else is the model's choice (log entries 9 and 16). -/
def Obligations.InitBindsTheLine : Prop :=
  EncodedAs 0x00 0x00000000 0xFFFF0000 [] (fun w => .init (w.extractLsb' 0 16)) ∧
  (∀ (l : U16) (s : State), s.fault = none → s.initialized = false →
    exec (.init l) s = .next (afterCommand none
      { s with
        initialized := true, line := some l, cs := .deasserted, trace := s.trace ++ [.bind l, .csDeassert]
        dev := devOnDeassert s.dev s.pendingLatch, pendingLatch := none })) ∧
  (∀ (l : U16) (s : State), s.fault = none → s.initialized = true →
    ∃ w, encode (.init l) = .command w ∧ exec (.init l) s = .next (afterFault .alreadyInitialized w s)) ∧
  (∃ t, issue 0x00000005 State.reset = .next t ∧ t.trace = [.reset, .bind 5, .csDeassert] ∧ t.cs = .deasserted ∧
    t.initialized = true ∧ t.line = some 5 ∧ t.resp = none ∧ t.pc = 1)

/-- R117. -/
def Obligations.ReadReturnsTheWordReceived : Prop :=
  EncodedAs 0x01 0x01000000 0xFFF8FFFF [] (fun w => .read (w.extractLsb' 16 3)) ∧
  (∀ a, NeedsInit (.read a)) ∧
  (∀ (a : U3) (s : State), Ready s →
    exec (.read a) s = .next (afterCommand (some (Config.busDraw s.draws)) (afterReadFrame a s))) ∧
  (∀ (a : U3) (v : U16) (s : State), Ready s → Memory.read s.dev a.toNat = some v →
    (Config.busDraw s.draws).extractLsb' 0 12 = v.extractLsb' 0 12 →
    ∃ t r, exec (.read a) s = .next t ∧ t.resp = some r ∧ r.extractLsb' 0 12 = v.extractLsb' 0 12) ∧
  (∃ t r, issue 0x01070000 initialisedBlock = .next t ∧ t.resp = some r ∧
    t.trace = initialisedBlock.trace ++ [.csAssert, .xfer 0xF000 r, .csDeassert])

/-- R118. -/
def Obligations.WriteSendsOneFrameAndNoShadowChanges : Prop :=
  EncodedAs 0x02 0x02000000 0xFFF80000 [] (fun w => .write (w.extractLsb' 16 3) (w.extractLsb' 0 16)) ∧
  (∀ a v, NeedsInit (.write a v)) ∧
  (∀ (a : U3) (v : U16) (s : State), Ready s → Narrow v →
    exec (.write a v) s = .next (afterCommand none (afterWriteFrame a v s))) ∧
  (∀ (a : U3) (v : U16) (s : State), Ready s → ¬ Narrow v →
    ∃ w, encode (.write a v) = .command w ∧ exec (.write a v) s = .next (afterFault .writeValueTooWide w s)) ∧
  (∃ t, issue 0x02030080 initialisedBlock = .next t ∧ t.shadow.blank = 0x0080 ∧
    t.trace = initialisedBlock.trace ++ bracket 0x3080 (Config.busDraw 0))

/-- R90, R91, R113: a bare frame is one transaction. That a frame can be run alone, that `resp` and `pc` then stay, and
what happens before INIT are the model's choices (log entry 3). -/
def Obligations.BareFrameIsOneTransaction : Prop :=
  (∀ (a : U3) (s : State), Ready s → exec (.readFrame a) s = .next (afterReadFrame a s)) ∧
  (∀ (a : U3) (d : U12) (s : State), Ready s →
    exec (.writeFrame a d) s = .next (afterWriteFrame a (d.setWidth 16) s)) ∧
  (∀ (a : U3) (s : State), s.fault = none → s.initialized = false →
    exec (.readFrame a) s = .next (afterFault .notInitialized ((readBits a).setWidth 32) s)) ∧
  (∀ (a : U3) (d : U12) (s : State), s.fault = none → s.initialized = false →
    exec (.writeFrame a d) s = .next (afterFault .notInitialized ((writeBits a (d.setWidth 16)).setWidth 32) s))

/-! ## Controller commands on CTRL -/

/-- R135. -/
def Obligations.EnableSetsBitZero : Prop :=
  EncodedAs 0x03 0x03000000 0xFFFFFFFF [] (fun _ => .enable) ∧ NeedsInit .enable ∧
  SetsTo .enable .ctrl (fun s => s.shadow.ctrl ||| 0x0001) ∧
  (∀ x : U16, x ||| 0x0001 = merge x ctrlEn 1 ∧ (x ||| 0x0001) ||| 0x0001 = x ||| 0x0001) ∧
  ExampleSetter .enable .ctrl 0x0C11 0x0C11

/-- R136. -/
def Obligations.DisableClearsBitZeroOrAll : Prop :=
  EncodedAs 0x04 0x04000000 0xFFFFFFFF [] (fun _ => .disable) ∧ NeedsInit .disable ∧
  (∀ s : State, Ready s → ShadowNarrow s → s.disableClearsAll = false →
    exec .disable s = .next (afterSetter .ctrl (s.shadow.ctrl &&& ~~~0x0001) s)) ∧
  (∀ s : State, Ready s → s.disableClearsAll = true →
    exec .disable s = .next (afterSetter .ctrl 0x0000 s)) ∧
  (∃ t u, exec .enable initialisedBlock = .next t ∧ exec .disable t = .next u ∧
    u.shadow.ctrl = 0x0C10 ∧ u.trace = t.trace ++ bracket 0x0C10 (Config.busDraw 1)) ∧
  (∃ t u, exec .enable { initialisedBlock with disableClearsAll := true } = .next t ∧ exec .disable t = .next u ∧
    u.shadow.ctrl = 0x0000 ∧ u.trace = t.trace ++ bracket 0x0000 (Config.busDraw 1))

/-- R137. -/
def Obligations.FlipDirTogglesBitOne : Prop :=
  EncodedAs 0x05 0x05000000 0xFFFFFFFF [] (fun _ => .flipDir) ∧ NeedsInit .flipDir ∧
  SetsTo .flipDir .ctrl (fun s => s.shadow.ctrl ^^^ 0x0002) ∧
  (∀ x : U16, x ^^^ 0x0002 = merge x ctrlDir (1 - fieldOf x ctrlDir)) ∧
  (∀ s : State, Ready s → ShadowNarrow s →
    ∃ t u, exec .flipDir s = .next t ∧ exec .flipDir t = .next u ∧ u.shadow = s.shadow ∧
      u.trace = s.trace ++ bracket (writeBits 0 (s.shadow.ctrl ^^^ 0x0002)) (Config.busDraw s.draws) ++
        bracket (writeBits 0 s.shadow.ctrl) (Config.busDraw (s.draws + 1))) ∧
  ExampleSetter .flipDir .ctrl 0x0C12 0x0C12

/-- R138: with bit 2 of the shadow set, every setter of CTRL keeps it and sends it (R242), but DISABLE that clears all. -/
def Obligations.StepSetsBitTwoAndKeepsIt : Prop :=
  EncodedAs 0x06 0x06000000 0xFFFFFFFF [] (fun _ => .step) ∧ NeedsInit .step ∧
  SetsTo .step .ctrl (fun s => s.shadow.ctrl ||| 0x0004) ∧
  ExampleSetter .step .ctrl 0x0C14 0x0C14 ∧
  (∃ t u, exec .step initialisedBlock = .next t ∧ exec .enable t = .next u ∧ u.shadow.ctrl = 0x0C15 ∧
    u.trace = t.trace ++ bracket 0x0C15 (Config.busDraw 1)) ∧
  (∀ x : U16, (x ||| 0x0004).getLsbD 2 = true ∧ (x ||| 0x0004) ||| 0x0004 = x ||| 0x0004) ∧
  (∀ (i : Instr) (s t : State), exec i s = .next t → s.shadow.ctrl.getLsbD 2 = true →
    ¬ (i = .disable ∧ s.disableClearsAll = true) →
    t.shadow.ctrl.getLsbD 2 = true ∧
      (targetOf i = some .ctrl → Ready s → ShadowNarrow s →
        ∃ out inn, t.trace = s.trace ++ bracket out inn ∧ out.getLsbD 2 = true))

/-- R141. -/
def Obligations.SetStepModeMergesTheCode : Prop :=
  EncodedAs 0x07 0x07000000 0xFFFF0000 [] (fun w => .setStepMode (w.extractLsb' 0 16)) ∧
  (∀ m, NeedsInit (.setStepMode m)) ∧
  (∀ m, SetsTo (.setStepMode m) .ctrl (fun s => merge s.shadow.ctrl ctrlMode ((encMode m).setWidth 16))) ∧
  (∀ (m : U16) (s t u : State), m ∉ [1, 2, 4, 8, 16, 32, 64, 128, 256] →
    exec (.setStepMode m) s = .next t → exec (.setStepMode 4) s = .next u → t.shadow = u.shadow) ∧
  ExampleSetter (.setStepMode 256) .ctrl 0x0C40 0x0C40

/-- R145. -/
def Obligations.SetExtStallSetsBitSeven : Prop :=
  EncodedAs 0x08 0x08000000 0xFFFFFFFF [] (fun _ => .setExtStall) ∧ NeedsInit .setExtStall ∧
  SetsTo .setExtStall .ctrl (fun s => s.shadow.ctrl ||| 0x0080) ∧
  (∀ x : U16, (x ||| 0x0080) ||| 0x0080 = x ||| 0x0080) ∧
  ExampleSetter .setExtStall .ctrl 0x0C90 0x0C90

/-- R146. -/
def Obligations.SetIntStallClearsBitSeven : Prop :=
  EncodedAs 0x09 0x09000000 0xFFFFFFFF [] (fun _ => .setIntStall) ∧ NeedsInit .setIntStall ∧
  SetsTo .setIntStall .ctrl (fun s => s.shadow.ctrl &&& ~~~0x0080) ∧
  ExampleSetter .setIntStall .ctrl 0x0C10 0x0C10 ∧
  (∃ t u, exec .setExtStall initialisedBlock = .next t ∧ exec .setIntStall t = .next u ∧ u.shadow.ctrl = 0x0C10 ∧
    u.trace = t.trace ++ bracket 0x0C10 (Config.busDraw 1))

/-- R151. -/
def Obligations.SetGainMergesTheCode : Prop :=
  EncodedAs 0x0A 0x0A000000 0xFFFF0000 [] (fun w => .setGain (w.extractLsb' 0 16)) ∧
  (∀ g, NeedsInit (.setGain g)) ∧
  (∀ g, SetsTo (.setGain g) .ctrl (fun s => merge s.shadow.ctrl ctrlGain ((encGain g).setWidth 16))) ∧
  (∀ (g : U16) (s t u : State), g ∉ [5, 10, 20, 40] →
    exec (.setGain g) s = .next t → exec (.setGain 20) s = .next u → t.shadow = u.shadow) ∧
  ExampleSetter (.setGain 40) .ctrl 0x0F10 0x0F10

/-- R156. -/
def Obligations.SetDeadTimeMergesTheCode : Prop :=
  EncodedAs 0x0B 0x0B000000 0xFFFF0000 [] (fun w => .setDeadTime (w.extractLsb' 0 16)) ∧
  (∀ t, NeedsInit (.setDeadTime t)) ∧
  (∀ t, SetsTo (.setDeadTime t) .ctrl (fun s => merge s.shadow.ctrl ctrlDtime ((encDeadTime t).setWidth 16))) ∧
  (∀ (t : U16) (s u v : State), t ∉ [400, 450, 650, 850] →
    exec (.setDeadTime t) s = .next u → exec (.setDeadTime 850) s = .next v → u.shadow = v.shadow) ∧
  ExampleSetter (.setDeadTime 400) .ctrl 0x0010 0x0010

/-! ## Controller commands on TORQUE and OFF, and the shadow read -/

/-- R170. -/
def Obligations.SetTorqueWritesTheLowByte : Prop :=
  EncodedAs 0x0C 0x0C000000 0xFFFFFF00 [] (fun w => .setTorque (w.extractLsb' 0 8)) ∧
  (∀ v, NeedsInit (.setTorque v)) ∧
  (∀ v : U8, SetsTo (.setTorque v) .torque (fun s => (s.shadow.torque &&& 0xFF00) ||| v.setWidth 16)) ∧
  (∀ (v : U8) (x : U16), merge x torqueVal (v.setWidth 16) = (x &&& 0xFF00) ||| v.setWidth 16) ∧
  ExampleSetter (.setTorque 0x80) .torque 0x0180 0x1180

/-- R171. -/
def Obligations.SetOffTimeWritesTheLowByte : Prop :=
  EncodedAs 0x0D 0x0D000000 0xFFFFFF00 [] (fun w => .setOffTime (w.extractLsb' 0 8)) ∧
  (∀ v, NeedsInit (.setOffTime v)) ∧
  (∀ v : U8, SetsTo (.setOffTime v) .off (fun s => (s.shadow.off &&& 0xFF00) ||| v.setWidth 16)) ∧
  (∀ (v : U8) (x : U16), merge x offToff (v.setWidth 16) = (x &&& 0xFF00) ||| v.setWidth 16) ∧
  ExampleSetter (.setOffTime 0x10) .off 0x0010 0x2010

/-- R172. -/
def Obligations.SetPwmModeTogglesBitEight : Prop :=
  EncodedAs 0x0E 0x0E000000 0xFFFF0000 [] (fun w => .setPwmMode (w.extractLsb' 0 16)) ∧
  (∀ mode, NeedsInit (.setPwmMode mode)) ∧
  (∀ mode, SetsTo (.setPwmMode mode) .off (fun s => s.shadow.off ^^^ 0x0100)) ∧
  (∀ (m n : U16) (s : State), Ready s → ShadowNarrow s →
    ∃ t u, exec (.setPwmMode m) s = .next t ∧ exec (.setPwmMode n) t = .next u ∧ u.shadow = s.shadow) ∧
  ExampleSetter (.setPwmMode 1) .off 0x0130 0x2130 ∧
  (∃ t u, exec (.setPwmMode 1) initialisedBlock = .next t ∧ exec (.setPwmMode 1) t = .next u ∧
    u.shadow.off = 0x0030 ∧ u.trace = t.trace ++ bracket 0x2030 (Config.busDraw 1))

/-- R175. -/
def Obligations.ReadShadowReturnsTheShadow : Prop :=
  EncodedAs 0x0F 0x0F000000 0xFFF8FFFF [0x0F050000, 0x0F060000] (fun w => .readShadow (w.extractLsb' 16 3)) ∧
  (∀ a : U3, a ≠ 5 → a ≠ 6 → ∃ r, ShadowReg.addr r = a) ∧
  (∀ (r : ShadowReg) (s : State), s.fault = none →
    exec (.readShadow r.addr) s = .next (afterCommand (some (s.shadow.get r)) s)) ∧
  (∀ s : State, s.fault = none → ShadowInv s →
    ∃ t, exec (.readShadow 7) s = .next t ∧ t.resp = some 0x0000) ∧
  (∃ t, issue 0x0F000000 State.reset = .next t ∧ t.resp = some 0x0C10 ∧ t.trace = [.reset])

/-! ## Fields and tables -/

/-- R131: the ten fields and their masks, every code the commands use fits its field, and no code that fits is cut or
reaches outside the mask. -/
def Obligations.FieldMasksAndCodesFit : Prop :=
  allFields.map (fun f => (f.reg, f.offset, f.width)) =
    [(.ctrl, 0, 1), (.ctrl, 1, 1), (.ctrl, 2, 1), (.ctrl, 3, 4), (.ctrl, 7, 1), (.ctrl, 8, 2), (.ctrl, 10, 2),
      (.torque, 0, 8), (.off, 0, 8), (.off, 8, 1)] ∧
  allFields.map fieldMask =
    [0x0001, 0x0002, 0x0004, 0x0078, 0x0080, 0x0300, 0x0C00, 0x00FF, 0x00FF, 0x0100] ∧
  (∀ f ∈ allFields, fieldMask f = ((1#16 <<< f.width) - 1#16) <<< f.offset) ∧
  (∀ m g t : U16, ∀ v : U8,
    (encMode m).toNat < 2 ^ ctrlMode.width ∧ (encGain g).toNat < 2 ^ ctrlGain.width ∧
    (encDeadTime t).toNat < 2 ^ ctrlDtime.width ∧ v.toNat < 2 ^ torqueVal.width ∧ v.toNat < 2 ^ offToff.width) ∧
  (∀ b : BitVec 1, ∀ f ∈ [ctrlEn, ctrlDir, ctrlStep, ctrlExstall, offPwm], b.toNat < 2 ^ f.width) ∧
  (∀ f ∈ allFields, ∀ old c : U16, c.toNat < 2 ^ f.width →
    merge old f c = (old &&& ~~~(fieldMask f)) ||| (c <<< f.offset) ∧
    (c <<< f.offset) &&& ~~~(fieldMask f) = 0 ∧ (c <<< f.offset) >>> f.offset = c)

/-- R132: bit isolation, of the merge and of every setter. -/
def Obligations.SettersLeaveOtherFieldsAlone : Prop :=
  (∀ f ∈ allFields, ∀ old c : U16, c.toNat < 2 ^ f.width →
    merge old f c &&& ~~~(fieldMask f) = old &&& ~~~(fieldMask f) ∧
    (merge old f c &&& fieldMask f) >>> f.offset = c) ∧
  (∀ (i : Instr) (f : BitField) (s t : State), fieldWritten i = some f → exec i s = .next t →
    ¬ (i = .disable ∧ s.disableClearsAll = true) →
    (∀ r, r ≠ f.reg → t.shadow.get r = s.shadow.get r) ∧
    t.shadow.get f.reg &&& ~~~(fieldMask f) = s.shadow.get f.reg &&& ~~~(fieldMask f))

/-- R140, R150, R155, R139: the encode tables, their fallbacks, and that the fallback is not the reset code. -/
def Obligations.EncodeTablesAndFallbacks : Prop :=
  ([1, 2, 4, 8, 16, 32, 64, 128, 256].map encMode = [0, 1, 2, 3, 4, 5, 6, 7, 8]) ∧
  (∀ m : U16, m ∉ [1, 2, 4, 8, 16, 32, 64, 128, 256] → encMode m = 2) ∧
  (∀ m : U16, (encMode m).toNat ≤ 8) ∧
  ([5, 10, 20, 40].map encGain = [0, 1, 2, 3]) ∧
  (∀ g : U16, g ∉ [5, 10, 20, 40] → encGain g = 2) ∧
  ([400, 450, 650, 850].map encDeadTime = [0, 1, 2, 3]) ∧
  (∀ t : U16, t ∉ [400, 450, 650, 850] → encDeadTime t = 3) ∧
  (fieldOf 0x0C10 ctrlMode = 2 ∧ fieldOf 0x0C10 ctrlGain = 0 ∧ fieldOf 0x0C10 ctrlDtime = 3) ∧
  ExampleSetter (.setGain 7) .ctrl 0x0E10 0x0E10

/-- R180 to R183: field extraction and the decode tables. -/
def Obligations.DecodeTables : Prop :=
  (∀ (x : U16) (f : BitField), fieldOf x f = (x &&& fieldMask f) >>> f.offset) ∧
  (∀ f ∈ allFields, ∀ x : U16, (fieldOf x f).toNat < 2 ^ f.width) ∧
  (fieldOf 0x0C10 ctrlMode = 2 ∧ fieldOf 0x0C10 ctrlGain = 0 ∧ fieldOf 0x0C10 ctrlDtime = 3 ∧
    fieldOf 0x0C10 ctrlEn = 0) ∧
  ([0, 1, 2, 3, 4, 5, 6, 7, 8].map decMode =
    [some 1, some 2, some 4, some 8, some 16, some 32, some 64, some 128, some 256]) ∧
  (∀ c : U4, 9 ≤ c.toNat → decMode c = none) ∧
  ([0, 1, 2, 3].map decGain = [5, 10, 20, 40]) ∧
  ([0, 1, 2, 3].map decDeadTime = [400, 450, 650, 850])

/-- R184: the round-trip laws. -/
def Obligations.DecodeUndoesEncode : Prop :=
  (∀ m : U16, decMode (encMode m) = some (if m ∈ [1, 2, 4, 8, 16, 32, 64, 128, 256] then m else 4)) ∧
  (∀ g : U16, decGain (encGain g) = if g ∈ [5, 10, 20, 40] then g else 20) ∧
  (∀ t : U16, decDeadTime (encDeadTime t) = if t ∈ [400, 450, 650, 850] then t else 850) ∧
  (([1, 2, 4, 8, 16, 32, 64, 128, 256].map (fun m : U16 => (encMode m).toNat)).Pairwise (· < ·)) ∧
  (∀ f ∈ allFields, ∀ x c : U16, c.toNat < 2 ^ f.width → fieldOf (merge x f c) f = c)

/-! ## The controller as a whole -/

/-- R185, R133: every setter is its row of the table, with exactly one write frame of the new value, and setters of
different registers commute on the shadow. -/
def Obligations.SettersFollowTheTable : Prop :=
  (∀ (i : Instr) (r : ShadowReg) (new : U16) (s : State), Ready s → ShadowNarrow s →
    setterTable s.shadow s.disableClearsAll i = some (r, new) →
    exec i s = .next (afterSetter r new s)) ∧
  (∀ (i j : Instr) (q r : ShadowReg) (s t u t' u' : State), ShadowNarrow s → targetOf i = some q →
    targetOf j = some r → q ≠ r → exec i s = .next t → exec j t = .next u → exec j s = .next t' →
    exec i t' = .next u' → u.shadow = u'.shadow)

/-- R134: no setter fails on its argument, and an unlisted one acts as the documented default. -/
def Obligations.SettersNeverFailOnTheirArgument : Prop :=
  (∀ (i : Instr) (r : ShadowReg) (s : State), targetOf i = some r → ShadowNarrow s → s.fault = none →
    (s.initialized = true → ∃ t, exec i s = .next t ∧ t.fault = none) ∧
    (s.initialized = false → ∃ t f, exec i s = .next t ∧ t.fault = some f ∧ f.reason = .notInitialized)) ∧
  (∀ (m : U16) (s : State), Ready s → ShadowNarrow s → m ∉ [1, 2, 4, 8, 16, 32, 64, 128, 256] →
    ∃ t, exec (.setStepMode m) s = .next t ∧ t.shadow = s.shadow.set .ctrl (merge s.shadow.ctrl ctrlMode 2)) ∧
  (∀ (g : U16) (s : State), Ready s → ShadowNarrow s → g ∉ [5, 10, 20, 40] →
    ∃ t, exec (.setGain g) s = .next t ∧ t.shadow = s.shadow.set .ctrl (merge s.shadow.ctrl ctrlGain 2)) ∧
  (∀ (d : U16) (s : State), Ready s → ShadowNarrow s → d ∉ [400, 450, 650, 850] →
    ∃ t, exec (.setDeadTime d) s = .next t ∧ t.shadow = s.shadow.set .ctrl (merge s.shadow.ctrl ctrlDtime 3))

/-- R71: after a setter the device holds what the shadow holds, whatever it held before (R236). For STEP, and wherever bit 2
is set, this is the value as it takes effect (R62), before the device clears the bit (log entry 6). -/
def Obligations.SetterMakesTheDeviceMatch : Prop :=
  ∀ (i : Instr) (r : ShadowReg) (s : State), targetOf i = some r → Ready s → ShadowNarrow s →
    ∃ t, exec i s = .next t ∧ Memory.read t.dev r.addr.toNat = some (t.shadow.get r)

/-- R71, R64, R66, R241, R243: every step keeps device and shadow equal on registers 0x0 to 0x4, bit 2 of CTRL clear and no
write latched, but on the inputs R71 lists as ways to part them, STEP and the device's own clear of the bit among them; on
those two as on every other, but the ways to part whole registers, the step keeps them equal up to that bit, which the
device may have cleared; and a reset of the block alone makes them equal where the device is at its defaults. When the clear
can come is log entry 6; that INIT makes no glitch is log entry 16, and the latch after a power cycle log entry 10. -/
def Obligations.MirrorIsKeptWithoutRawWrites : Prop :=
  (∀ s t : State, MirrorInv s → (∀ inp rest, s.inputs = inp :: rest → mayDesynchronise inp = false) →
    step s = .next t → MirrorInv t) ∧
  (∀ s t : State, MirrorButStep s → (∀ inp rest, s.inputs = inp :: rest → partsRegisters inp = false) →
    step s = .next t → MirrorButStep t) ∧
  (∀ (s : State) (rest : List Input), s.inputs = .blockReset :: rest → s.phase = .idle → DeviceAtDefaults s →
    s.pendingLatch = none → ∃ t, step s = .next t ∧ MirrorInv t)

/-- R241: a raw WRITE of CTRL, TORQUE or OFF and any setter of that register after it: the setter merges into the old
shadow and so undoes the write outside its own field. What the device then holds is R62's (log entry 9). -/
def Obligations.StaleShadowAfterRawWrite : Prop :=
  (∀ (i : Instr) (r : ShadowReg) (new v : U16) (s : State), Ready s → ShadowNarrow s → Narrow v →
    setterTable s.shadow s.disableClearsAll i = some (r, new) →
    ∃ t u, exec (.write r.addr v) s = .next t ∧ t.shadow = s.shadow ∧
      Memory.read t.dev r.addr.toNat = some v ∧
      exec i t = .next u ∧ u.trace = t.trace ++ bracket (writeBits r.addr new) (Config.busDraw t.draws) ∧
      Memory.read u.dev r.addr.toNat = some new ∧
      (∀ f, fieldWritten i = some f → ¬ (i = .disable ∧ s.disableClearsAll = true) →
        new &&& ~~~(fieldMask f) = s.shadow.get r &&& ~~~(fieldMask f))) ∧
  (∀ a : U3, a.toNat ≤ 2 ↔ ∃ i r, targetOf i = some r ∧ r.addr = a) ∧
  (∃ t u, exec (.write 0 0x0C11) initialisedBlock = .next t ∧ t.shadow.ctrl = 0x0C10 ∧ exec .flipDir t = .next u ∧
    u.trace = t.trace ++ bracket 0x0C12 (Config.busDraw 1))

/-! ## Faults -/

/-- R205, R200: at most one fault, and the first failing check in order is the one reported. -/
def Obligations.FirstFailingCheckIsReported : Prop :=
  (∀ (w : U32) (s : State) (r : FaultReason), s.fault = none → wordFault w s = some r →
    issue w s = .next (afterFault r w s)) ∧
  (∀ (w : U32) (s : State), s.fault = none → ShadowNarrow s → wordFault w s = none →
    ∃ t, issue w s = .next t ∧ t.fault = none) ∧
  issue 0x02001000 State.reset = .next (afterFault .notInitialized 0x02001000 State.reset) ∧
  issue 0x02081000 State.reset = .next (afterFault .illegalCommand 0x02081000 State.reset)

/-- R206: a fault changes nothing but the record, and a halted block executes nothing. That a word given to a halted block
is lost and does not wait for the reset is the model's choice (log entry 5), as is what a bare frame does (log entry 3). -/
def Obligations.FaultsArePreciseAndHalt : Prop :=
  (∀ (i : Instr) (s t : State), s.fault = none → exec i s = .next t → t.fault ≠ none →
    t = { s with fault := t.fault } ∧ (BusInv s → t.cs = .deasserted ∨ t.cs = .unbound ∧ t.initialized = false)) ∧
  (∀ (i : Instr) (s : State), s.fault ≠ none → exec i s = .next s) ∧
  (∀ (w : U32) (s : State), s.fault ≠ none → issue w s = .next s)

/-- R207: only a reset of the block clears a fault, and no second fault replaces one. -/
def Obligations.OnlyResetClearsAFault : Prop :=
  (∀ (s t : State) (inp : Input) (rest : List Input), s.inputs = inp :: rest → s.fault ≠ none →
    resetsBlock inp = false → step s = .next t → t.fault = s.fault) ∧
  (∀ (s : State) (rest : List Input), s.inputs = .blockReset :: rest → ∃ t, step s = .next t ∧ t.fault = none)

/-- R32, R33: what completing and faulting do to `pc` and to the response port. -/
def Obligations.PcAndResponseFollowCompletion : Prop :=
  (∀ (i : Instr) (s t : State), isCommand i = true → s.fault = none → exec i s = .next t →
    (t.fault = none → t.pc = s.pc + 1) ∧
    (t.fault ≠ none → t.pc = s.pc ∧ t.resp = s.resp) ∧
    (t.fault = none → (∀ a, i ≠ .read a) → (∀ a, i ≠ .readShadow a) → t.resp = none)) ∧
  (∀ (a : U3) (s t : State), s.fault = none → exec (.read a) s = .next t → t.fault = none →
    ∃ out r, t.trace = s.trace ++ bracket out r ∧ t.resp = some r) ∧
  (∀ (r : ShadowReg) (s t : State), s.fault = none → exec (.readShadow r.addr) s = .next t →
    t.resp = some (s.shadow.get r)) ∧
  State.reset.pc = 0 ∧ State.reset.resp = none

/-! ## Frames -/

/-- R21: a step changes a shadow only by a controller setter or by a reset of the block. -/
def Obligations.OnlySettersAndResetChangeShadows : Prop :=
  ∀ s t : State, step s = .next t → t.shadow ≠ s.shadow →
    (∃ p i rest, s.inputs = .issue p :: rest ∧ decode p = .instr i ∧ keepsShadow i = false) ∨
    (∃ inp rest, s.inputs = inp :: rest ∧ resetsBlock inp = true)

/-- R38: INIT and READ_SHADOW change no shadow, and READ_SHADOW nothing of the bus. That INIT leaves every device register
as it was, where nothing is latched (R62), is the model's choice: no glitch reaches the device (log entry 16). -/
def Obligations.FrameOfInitAndReadShadow : Prop :=
  (∀ (l : U16) (s t : State), exec (.init l) s = .next t →
    t.shadow = s.shadow ∧ t.phase = s.phase ∧ t.disableClearsAll = s.disableClearsAll ∧ t.draws = s.draws ∧
      t.inputs = s.inputs ∧
      (s.pendingLatch = none → t.pendingLatch = none ∧ ∀ a, Memory.read t.dev a = Memory.read s.dev a)) ∧
  (∀ (a : U3) (s t : State), exec (.readShadow a) s = .next t →
    t = { s with resp := t.resp, pc := t.pc, fault := t.fault } ∧
      ∀ b, Memory.read t.dev b = Memory.read s.dev b)

/-- R38, R21: READ, WRITE, READ_FRAME and WRITE_FRAME change no shadow, not `initialized` and not `line`, and of the
device only the register a write frame is sent to (R62). That the bare frames change neither `pc` nor `resp` is the model's
choice (log entry 3). -/
def Obligations.FrameOfTransport : Prop :=
  (∀ (i : Instr) (s t : State), (∃ a, i = .read a ∨ i = .readFrame a) → exec i s = .next t →
    t.shadow = s.shadow ∧ t.initialized = s.initialized ∧ t.line = s.line ∧
      t.disableClearsAll = s.disableClearsAll ∧ t.inputs = s.inputs ∧
      (s.pendingLatch = none → t.pendingLatch = none ∧ ∀ b, Memory.read t.dev b = Memory.read s.dev b)) ∧
  (∀ (i : Instr) (a : U3) (s t : State), (∃ v, i = .write a v) ∨ (∃ d, i = .writeFrame a d) → exec i s = .next t →
    t.shadow = s.shadow ∧ t.initialized = s.initialized ∧ t.line = s.line ∧
      t.disableClearsAll = s.disableClearsAll ∧ t.inputs = s.inputs ∧
      ∀ b, b ≠ a.toNat → Memory.read t.dev b = Memory.read s.dev b) ∧
  (∀ (i : Instr) (s t : State), isCommand i = false → exec i s = .next t → t.pc = s.pc ∧ t.resp = s.resp)

/-- R38: every controller setter changes one shadow and, of the device, the one register its frame is sent to. -/
def Obligations.FrameOfSetters : Prop :=
  ∀ (i : Instr) (r : ShadowReg) (s t : State), targetOf i = some r → exec i s = .next t →
    (∀ q, q ≠ r → t.shadow.get q = s.shadow.get q) ∧ t.initialized = s.initialized ∧ t.line = s.line ∧
      t.disableClearsAll = s.disableClearsAll ∧ t.inputs = s.inputs ∧
      ∀ b, b ≠ r.addr.toNat → Memory.read t.dev b = Memory.read s.dev b

/-! ## The device and the bus -/

/-- R62, R57: a write frame takes effect in the device at the deassert that ends its bracket, and not otherwise. -/
def Obligations.WriteFramesLatchAtDeassert : Prop :=
  ∀ (i : Instr) (s t : State) (out inn : U16), exec i s = .next t → t.trace = s.trace ++ bracket out inn →
    out.getLsbD 15 = false →
    t.pendingLatch = none ∧
    ∀ b : U3, Memory.read t.dev b.toNat =
      if b = out.extractLsb' 12 3 then
        (if b.toNat ≤ 4 then some ((out.extractLsb' 0 12).setWidth 16) else none)
      else Memory.read s.dev b.toNat

/-- R63, R64, R117: where the bus echoes the device, a READ of a known register returns it on the bits the device fixes. -/
def Obligations.ReadReturnsTheDeviceRegister : Prop :=
  ∀ (a : U3) (v : U16) (s : State), Ready s → DeviceReadEcho s a → Memory.read s.dev a.toNat = some v →
    ∃ t r, exec (.read a) s = .next t ∧ t.resp = some r ∧ r &&& echoMask a v = v &&& echoMask a v

/-- R64, R71, R242: the device's clear of its STEP bit is a step that clears bit 2 of device register 0x0 where that is known
and changes nothing else; after a STEP and that clear the shadow's bit is still set, so device and shadow differ. That the
clear comes between commands is the model's form of a time the source does not give (log entry 6). -/
def Obligations.DeviceClearsTheStepBit : Prop :=
  (∀ (s : State) (rest : List Input), s.inputs = .stepSelfClear :: rest →
    ∃ t, step s = .next t ∧ t = { s with inputs := rest, dev := t.dev } ∧
      ∀ b, Memory.read t.dev b =
        if b = 0 then (Memory.read s.dev 0).map (fun v => v &&& ~~~0x0004) else Memory.read s.dev b) ∧
  (∀ (s : State) (rest : List Input), Ready s → ShadowNarrow s →
    s.inputs = .issue (.command 0x06000000) :: .stepSelfClear :: rest →
    ∃ t u, step s = .next t ∧ step t = .next u ∧
      t.shadow.ctrl = s.shadow.ctrl ||| 0x0004 ∧ Memory.read t.dev 0 = some (s.shadow.ctrl ||| 0x0004) ∧
      u.shadow = t.shadow ∧ Memory.read u.dev 0 = some (s.shadow.ctrl &&& ~~~0x0004) ∧ ¬ Mirrored u)

/-- R65: a bracket cut by reset. With the exchange done, a write frame makes its register unknown and a read frame changes
nothing; with the exchange not done, every register becomes unknown; the latch is cleared. That a cut comes after a number of
bus events is the model's choice (log entry 11). -/
def Obligations.InterruptedFrameMakesRegistersUnknown : Prop :=
  ∀ (p : Packet) (s t : State) (out inn : U16), s.pendingLatch = none →
    step (present p s) = .next t → t.trace = s.trace ++ bracket out inn →
    (∃ u, step { s with inputs := .issueCut p 1 :: s.inputs } = .next u ∧ u.pendingLatch = none ∧
      ∀ b, Memory.read u.dev b = none) ∧
    (∃ u, step { s with inputs := .issueCut p 2 :: s.inputs } = .next u ∧ u.pendingLatch = none ∧
      (out.getLsbD 15 = true → ∀ b, Memory.read u.dev b = Memory.read s.dev b) ∧
      (out.getLsbD 15 = false → ∀ b : U3, Memory.read u.dev b.toNat =
        if b = out.extractLsb' 12 3 then none else Memory.read s.dev b.toNat))

/-- R234: wherever a command is cut, the block is at reset, and the trace keeps the events already emitted, then RESET. That
a cut comes after a number of bus events is the model's choice (log entry 11). -/
def Obligations.CutCommandLeavesTheResetState : Prop :=
  ∀ (p : Packet) (k : Nat) (s t : State), step { s with inputs := .issueCut p k :: s.inputs } = .next t →
    BlockAtReset t ∧ t.inputs = s.inputs ∧
    ∃ u evs, step (present p s) = .next u ∧ u.trace = s.trace ++ evs ∧
      t.trace = s.trace ++ evs.take k ++ [.reset]

/-- R60, R31, R37: exec answers a next state from every state, and neither the bus, its history nor the device reaches the
block but through the response of a READ. -/
def Obligations.BusReachesOnlyTheResponse : Prop :=
  ∀ (i : Instr) (s s' : State), controlOf s = controlOf s' → s.disableClearsAll = s'.disableClearsAll →
    ∃ t t', exec i s = .next t ∧ exec i s' = .next t' ∧ controlOf t = controlOf t' ∧
      (s.resp = s'.resp → (∀ a, i ≠ .read a) → t.resp = t'.resp)

/-- R55: the order of a frame's bits and bytes on the wire. -/
def Obligations.FramesGoMostSignificantBitFirst : Prop :=
  ∀ w : U16,
    (wireBits w).length = 16 ∧ (∀ k, k < 16 → (wireBits w)[k]? = some (w.getLsbD (15 - k))) ∧
    ofWireBits (wireBits w) = w ∧ joinBytes (frameBytes w).1 (frameBytes w).2 = w ∧
    wireBits w = (List.range 8).map (fun k => (frameBytes w).1.getLsbD (7 - k)) ++
      (List.range 8).map (fun k => (frameBytes w).2.getLsbD (7 - k))

/-- R95, R81: the instruction and the word of every form, the operands that do not assemble, and that no other line does.
That an operand is a number or a name already read is the model's choice (log entry 20). -/
def Obligations.AssembledLinesAreCommandWords : Prop :=
  (ValueForm "INIT" 0x00 0xFFFF (fun n => .init (BitVec.ofNat 16 n)) ∧
    ValueForm "SET_STEP_MODE" 0x07 0xFFFF (fun n => .setStepMode (BitVec.ofNat 16 n)) ∧
    ValueForm "SET_GAIN" 0x0A 0xFFFF (fun n => .setGain (BitVec.ofNat 16 n)) ∧
    ValueForm "SET_DEAD_TIME" 0x0B 0xFFFF (fun n => .setDeadTime (BitVec.ofNat 16 n)) ∧
    ValueForm "SET_TORQUE" 0x0C 0xFF (fun n => .setTorque (BitVec.ofNat 8 n)) ∧
    ValueForm "SET_OFF_TIME" 0x0D 0xFF (fun n => .setOffTime (BitVec.ofNat 8 n)) ∧
    ValueForm "SET_PWM_MODE" 0x0E 0xFFFF (fun n => .setPwmMode (BitVec.ofNat 16 n))) ∧
  (AddressForm "READ" 0x01 (fun n => n < 8) .read ∧
    AddressForm "READ_SHADOW" 0x0F (fun n => n < 8 ∧ n ≠ 5 ∧ n ≠ 6) .readShadow) ∧
  ((∀ x n, addressNumber x < 8 → n ≤ 0xFFFF →
      AssemblesTo "WRITE" [x, .num n] (.write (BitVec.ofNat 3 (addressNumber x)) (BitVec.ofNat 16 n)) 0x02
        (addressNumber x) n) ∧
    (∀ x n, 8 ≤ addressNumber x ∨ 0xFFFF < n → assemble "WRITE" [x, .num n] = none) ∧
    (∀ x r, assemble "WRITE" [x, .reg r] = none)) ∧
  (AssemblesTo "ENABLE" [] .enable 0x03 0 0 ∧ AssemblesTo "DISABLE" [] .disable 0x04 0 0 ∧
    AssemblesTo "FLIP_DIR" [] .flipDir 0x05 0 0 ∧ AssemblesTo "STEP" [] .step 0x06 0 0 ∧
    AssemblesTo "SET_EXT_STALL" [] .setExtStall 0x08 0 0 ∧ AssemblesTo "SET_INT_STALL" [] .setIntStall 0x09 0 0) ∧
  (∀ (m : String) (ops : List AsmOperand), (m, ops.length) ∉ operandCounts → assemble m ops = none) ∧
  (∀ (m : String) (ops : List AsmOperand) (i : Instr), assemble m ops = some i →
    i.wellFormed = true ∧ isCommand i = true) ∧
  AssemblesTo "SET_DEAD_TIME" [.num 850] (.setDeadTime 850) 0x0B 0 850 ∧ lineWord 0x0B 0 850 = 0x0B000352

/-! ## Invariants -/

/-- R27, R25, R26: every step keeps the shadow's invariant. -/
def Obligations.StepKeepsShadowInv : Prop :=
  ∀ s t : State, ShadowInv s → step s = .next t → ShadowInv t

/-- R29, R30, R28, R114: every step keeps chip-select, line and trace in the bus protocol. After a power cycle the trace and
the latch are the model's choices (log entries 12 and 10), after a reset of the device alone the latch is (log entry 18). -/
def Obligations.StepKeepsBusInv : Prop :=
  ∀ s t : State, BusInv s → step s = .next t → BusInv t

/-- R61, R62, R65: every step keeps the device's register space in canonical form, STATUS and the reserved registers
unknown, and no value wider than 12 bits. After a power cycle the latch, and after a reset of the device alone the latch and
the registers, are the model's choices (log entries 10 and 18). -/
def Obligations.StepKeepsDeviceInv : Prop :=
  ∀ s t : State, DeviceInv s → step s = .next t → DeviceInv t

/-- R34, R32: while a fault is recorded, `pc` stays where it was raised. -/
def Obligations.StepKeepsFaultInv : Prop :=
  ∀ s t : State, FaultInv s → step s = .next t → FaultInv t

/-- The four invariants hold right after power-on, whatever the host will do and whichever way the parameter is set. That
nothing is latched then is the model's choice (log entry 10). -/
def Obligations.ResetMeetsTheInvariants : Prop :=
  ∀ (inputs : List Input) (clearsAll : Bool),
    let s : State := { State.reset with inputs := inputs, disableClearsAll := clearsAll }
    ShadowInv s ∧ BusInv s ∧ DeviceInv s ∧ FaultInv s
end

