-- ==== Sys2Proof/Laws/Assembler.lean ====
section
/-! SUPPORT. What each operand form of the assembler answers. -/

namespace Sys2Proof.Machine

open Sys2Proof.Safety

/-- An address operand is its number, where that is an address (30_encoding.md R95). -/
theorem asmAddr_eq (x : AsmOperand) :
    asmAddr x = if addressNumber x < 8 then some (BitVec.ofNat 3 (addressNumber x)) else none := by
  cases x with
  | num n => rfl
  | reg r => cases r <;> rfl

theorem asmWord_num (n : Nat) : asmWord (.num n) = if n ≤ 0xFFFF then some (BitVec.ofNat 16 n) else none := rfl

theorem asmByte_num (n : Nat) : asmByte (.num n) = if n ≤ 0xFF then some (BitVec.ofNat 8 n) else none := rfl

@[simp] theorem asmWord_reg (r : ShadowReg) : asmWord (.reg r) = none := rfl

@[simp] theorem asmByte_reg (r : ShadowReg) : asmByte (.reg r) = none := rfl

end Sys2Proof.Machine
end

