-- ==== Sys2Proof/Laws/Bits.lean ====
section
/-! SUPPORT. The bit fields of command words and frames: what each field of a word built by the encoder reads as. -/

namespace Sys2Proof

theorem opcField_commandWord (opc : U8) (a : U3) (d : U16) : opcField (commandWord opc a d) = opc := by
  apply BitVec.eq_of_getLsbD_eq
  intro i hi
  simp only [opcField, commandWord, BitVec.getLsbD_extractLsb', BitVec.getLsbD_append]
  simp [hi, show ¬ 24 + i < 16 by omega, show ¬ 24 + i - 16 < 3 by omega, show ¬ 24 + i - 16 - 3 < 5 by omega,
    show 24 + i - 16 - 3 - 5 = i by omega]

theorem rsvField_commandWord (opc : U8) (a : U3) (d : U16) : rsvField (commandWord opc a d) = 0 := by
  apply BitVec.eq_of_getLsbD_eq
  intro i hi
  simp only [rsvField, commandWord, BitVec.getLsbD_extractLsb', BitVec.getLsbD_append]
  simp [hi, show ¬ 19 + i < 16 by omega, show ¬ 19 + i - 16 < 3 by omega, show 19 + i - 16 - 3 < 5 by omega]

theorem aField_commandWord (opc : U8) (a : U3) (d : U16) : aField (commandWord opc a d) = a := by
  apply BitVec.eq_of_getLsbD_eq
  intro i hi
  simp only [aField, commandWord, BitVec.getLsbD_extractLsb', BitVec.getLsbD_append]
  simp [hi, show ¬ 16 + i < 16 by omega]

theorem dField_commandWord (opc : U8) (a : U3) (d : U16) : dField (commandWord opc a d) = d := by
  apply BitVec.eq_of_getLsbD_eq
  intro i hi
  simp only [dField, commandWord, BitVec.getLsbD_extractLsb', BitVec.getLsbD_append]
  simp [hi]

/-- A word whose reserved field is 0 is its own opcode, address and data put together again. -/
theorem commandWord_of_fields (w : U32) (h : rsvField w = 0) :
    commandWord (opcField w) (aField w) (dField w) = w := by
  have hr : ∀ j, j < 5 → w.getLsbD (19 + j) = false := by
    intro j hj
    have := congrArg (fun v : BitVec 5 => v.getLsbD j) h
    simpa [rsvField, BitVec.getLsbD_extractLsb', hj] using this
  apply BitVec.eq_of_getLsbD_eq
  intro i hi
  simp only [opcField, aField, dField, commandWord, BitVec.getLsbD_extractLsb', BitVec.getLsbD_append]
  by_cases h1 : i < 16
  · simp [h1]
  · by_cases h2 : i - 16 < 3
    · simp [h1, h2, show 16 + (i - 16) = i by omega]
    · by_cases h3 : i - 16 - 3 < 5
      · have := hr (i - 16 - 3) h3
        rw [show 19 + (i - 16 - 3) = i by omega] at this
        simp [h1, h2, h3, this]
      · simp [h1, h2, h3, show i - 16 - 3 - 5 < 8 by omega, show 24 + (i - 16 - 3 - 5) = i by omega]

theorem readFrameWord_eq_append : ∀ a : U3, readFrameWord a = 1#1 ++ a ++ 0#12 := by decide

/-- The frame of a value that fits is direction, address and data side by side (R91). -/
theorem writeFrameWord_eq_append (a : U3) (v : U16) (h : v.extractLsb' 12 4 = 0) :
    writeFrameWord a v = 0#1 ++ a ++ v.extractLsb' 0 12 := by
  have hv : ∀ j, j < 4 → v.getLsbD (12 + j) = false := by
    intro j hj
    have := congrArg (fun x : BitVec 4 => x.getLsbD j) h
    simpa [BitVec.getLsbD_extractLsb', hj] using this
  apply BitVec.eq_of_getLsbD_eq
  intro i hi
  simp only [writeFrameWord, BitVec.getLsbD_or, BitVec.getLsbD_shiftLeft, BitVec.getLsbD_setWidth, BitVec.getLsbD_append,
    BitVec.getLsbD_extractLsb']
  by_cases h1 : i < 12
  · simp [h1]
  · have h2 := hv (i - 12) (by omega)
    rw [show 12 + (i - 12) = i by omega] at h2
    simp only [h1, h2]
    by_cases h3 : i - 12 < 3
    · simp [h3, hi, show i - 12 < 16 by omega]
    · simp [h3, hi, BitVec.getLsbD_of_ge a (i - 12) (by omega)]

/-- The 12 data bits of a frame fit a register's low 12 bits. -/
theorem narrow_setWidth (d : U12) : (d.setWidth 16).extractLsb' 12 4 = 0 := by
  apply BitVec.eq_of_getLsbD_eq
  intro i hi
  simp [BitVec.getLsbD_extractLsb']

theorem extract_setWidth (d : U12) : (d.setWidth 16).extractLsb' 0 12 = d := by
  apply BitVec.eq_of_getLsbD_eq
  intro i hi
  simp [hi, show i < 16 by omega]

/-- A value that fits is its low 12 bits. -/
theorem setWidth_extract (v : U16) (h : v.extractLsb' 12 4 = 0) : (v.extractLsb' 0 12).setWidth 16 = v := by
  apply BitVec.eq_of_getLsbD_eq
  intro i hi
  by_cases h1 : i < 12
  · simp [hi, h1]
  · have := congrArg (fun x : BitVec 4 => x.getLsbD (i - 12)) h
    simp [show i - 12 < 4 by omega, show 12 + (i - 12) = i by omega] at this
    simp [BitVec.getLsbD_extractLsb', h1, this]

/-- The three fields of a write frame (R94). -/
theorem frameIsRead_writeFrameWord (a : U3) (v : U16) (h : v.extractLsb' 12 4 = 0) :
    frameIsRead (writeFrameWord a v) = false := by
  rw [writeFrameWord_eq_append a v h, frameIsRead, BitVec.getLsbD_append, BitVec.getLsbD_append]
  simp

theorem frameAddr_writeFrameWord (a : U3) (v : U16) (h : v.extractLsb' 12 4 = 0) :
    frameAddr (writeFrameWord a v) = a := by
  rw [writeFrameWord_eq_append a v h]
  apply BitVec.eq_of_getLsbD_eq
  intro i hi
  simp only [frameAddr, BitVec.getLsbD_extractLsb', BitVec.getLsbD_append]
  simp [hi]

theorem frameData_writeFrameWord (a : U3) (v : U16) (h : v.extractLsb' 12 4 = 0) :
    frameData (writeFrameWord a v) = v.extractLsb' 0 12 := by
  rw [writeFrameWord_eq_append a v h]
  apply BitVec.eq_of_getLsbD_eq
  intro i hi
  simp only [frameData, BitVec.getLsbD_extractLsb', BitVec.getLsbD_append]
  simp [hi]

/-- The three fields of a read frame (R94). -/
theorem frameIsRead_readFrameWord : ∀ a : U3, frameIsRead (readFrameWord a) = true := by decide

theorem frameAddr_readFrameWord : ∀ a : U3, frameAddr (readFrameWord a) = a := by decide

theorem frameData_readFrameWord : ∀ a : U3, frameData (readFrameWord a) = 0 := by decide

/-- What the device latches from a write frame (R62). -/
theorem latchOnXfer_writeFrameWord (a : U3) (v : U16) (l : Option (U3 × U12)) (h : v.extractLsb' 12 4 = 0) :
    Machine.latchOnXfer .asserted (writeFrameWord a v) l = some (a, v.extractLsb' 0 12) := by
  simp [Machine.latchOnXfer, frameIsRead_writeFrameWord a v h, frameAddr_writeFrameWord a v h,
    frameData_writeFrameWord a v h]

/-- A read frame leaves the latch (R63). -/
theorem latchOnXfer_readFrameWord (a : U3) (l : Option (U3 × U12)) :
    Machine.latchOnXfer .asserted (readFrameWord a) l = l := by
  simp [Machine.latchOnXfer, frameIsRead_readFrameWord a]

end Sys2Proof
end

