-- ==== Sys2Proof/Laws/Memory.lean ====
section
/-! SUPPORT. The laws of the device register space: what a read gives after each operation, and that every operation
keeps the canonical form. -/

namespace Sys2Proof.Machine

@[simp] theorem Memory.read_nil (a : Nat) : Memory.read [] a = none := rfl

theorem Memory.read_write (m : Memory) (a b : Nat) (v : U16) :
    Memory.read (Memory.write m a v) b = if b = a then some v else Memory.read m b := by
  induction m with
  | nil => simp [Memory.write, Memory.read, Memory.unlisted, eq_comm]
  | cons c m ih =>
    obtain ⟨x, w⟩ := c
    simp only [Memory.write]
    split
    · by_cases h : a = b
      · simp [Memory.read, h]
      · simp [Memory.read, h, eq_comm]
    · split
      · next h => subst h; by_cases h : a = b <;> simp [Memory.read, h]; exact fun e => absurd e.symm h
      · next h1 h2 =>
        simp only [Memory.read, ih]
        by_cases h : x = b
        · subst h; simp [Ne.symm h2]
        · simp [h]

theorem Memory.read_erase (m : Memory) (a b : Nat) :
    Memory.read (Memory.erase m a) b = if b = a then none else Memory.read m b := by
  induction m with
  | nil => simp [Memory.erase, Memory.read, Memory.unlisted]
  | cons c m ih =>
    obtain ⟨x, w⟩ := c
    simp only [Memory.erase]
    split
    · next h => subst h; rw [ih]; by_cases h : x = b <;> simp [Memory.read, h]
    · next h1 =>
      simp only [Memory.read, ih]
      by_cases h : x = b
      · subst h; simp [h1]
      · simp [h]

theorem Memory.risingFrom_mono (m : Memory) (lo lo' : Nat) (h : lo' ≤ lo) (hm : Memory.risingFrom lo m = true) :
    Memory.risingFrom lo' m = true := by
  cases m with
  | nil => rfl
  | cons c m =>
    simp only [Memory.risingFrom, Bool.and_eq_true, decide_eq_true_eq] at hm ⊢
    exact ⟨⟨by omega, hm.1.2⟩, hm.2⟩

theorem Memory.risingFrom_write (m : Memory) (lo a : Nat) (v : U16) (ha : a < 8) (hlo : lo ≤ a)
    (hm : Memory.risingFrom lo m = true) : Memory.risingFrom lo (Memory.write m a v) = true := by
  induction m generalizing lo with
  | nil => simp [Memory.write, Memory.risingFrom, ha, hlo]
  | cons c m ih =>
    obtain ⟨x, w⟩ := c
    simp only [Memory.risingFrom, Bool.and_eq_true, decide_eq_true_eq] at hm
    obtain ⟨⟨h1, h2⟩, h3⟩ := hm
    simp only [Memory.write]
    split
    · simp only [Memory.risingFrom, Bool.and_eq_true, decide_eq_true_eq]
      exact ⟨⟨hlo, ha⟩, ⟨by omega, h2⟩, h3⟩
    · split
      · next h => subst h; simp [Memory.risingFrom, h1, h2, h3]
      · simp only [Memory.risingFrom, Bool.and_eq_true, decide_eq_true_eq]
        exact ⟨⟨h1, h2⟩, ih (x + 1) (by omega) h3⟩

theorem Memory.risingFrom_erase (m : Memory) (lo a : Nat) (hm : Memory.risingFrom lo m = true) :
    Memory.risingFrom lo (Memory.erase m a) = true := by
  induction m generalizing lo with
  | nil => rfl
  | cons c m ih =>
    obtain ⟨x, w⟩ := c
    simp only [Memory.risingFrom, Bool.and_eq_true, decide_eq_true_eq] at hm
    obtain ⟨⟨h1, h2⟩, h3⟩ := hm
    simp only [Memory.erase]
    split
    · exact Memory.risingFrom_mono _ (x + 1) lo (by omega) (ih (x + 1) h3)
    · simp [Memory.risingFrom, h1, h2, ih (x + 1) h3]

/-- Every operation on the register space keeps the canonical form. -/
theorem Memory.wf_write (m : Memory) (a : Nat) (v : U16) (ha : a < 8) (hm : m.wf = true) :
    (Memory.write m a v).wf = true :=
  Memory.risingFrom_write m 0 a v ha (Nat.zero_le a) hm

theorem Memory.wf_erase (m : Memory) (a : Nat) (hm : m.wf = true) : (Memory.erase m a).wf = true :=
  Memory.risingFrom_erase m 0 a hm

theorem Memory.wf_devOnDeassert (dev : Memory) (latch : Option (U3 × U12)) (h : dev.wf = true) :
    (devOnDeassert dev latch).wf = true := by
  cases latch with
  | none => exact h
  | some p =>
    simp only [devOnDeassert]
    split
    · exact Memory.wf_write _ _ _ p.1.isLt h
    · exact Memory.wf_erase _ _ h

theorem Memory.wf_devOnSelfClear (dev : Memory) (h : dev.wf = true) : (devOnSelfClear dev).wf = true := by
  unfold devOnSelfClear
  split
  · exact Memory.wf_write _ _ _ (by decide) h
  · exact h

theorem Memory.wf_devOnCut (phase : Phase) (dev : Memory) (latch : Option (U3 × U12)) (h : dev.wf = true) :
    (devOnCut phase dev latch).wf = true := by
  cases phase <;> cases latch <;> first | exact h | rfl | exact Memory.wf_erase _ _ h

theorem Memory.wf_devDefaults : devDefaults.wf = true := by decide

/-- The memory of the reset state has the canonical form. -/
theorem Memory.wf_reset : State.reset.dev.wf = true := Memory.wf_devDefaults

/-- What a device register reads as once a latched write has taken effect (R62). -/
theorem read_devOnDeassert_some (dev : Memory) (a : U3) (d : U12) (b : Nat) :
    Memory.read (devOnDeassert dev (some (a, d))) b =
      if b = a.toNat then (if a.toNat ≤ 4 then some (d.setWidth 16) else none) else Memory.read dev b := by
  simp only [devOnDeassert]
  split <;> simp [Memory.read_write, Memory.read_erase]

/-- What a device register reads as once the device has cleared its STEP bit (R64). -/
theorem read_devOnSelfClear (dev : Memory) (b : Nat) :
    Memory.read (devOnSelfClear dev) b =
      if b = 0 then (Memory.read dev 0).map (fun v => v &&& ~~~0x0004) else Memory.read dev b := by
  unfold devOnSelfClear
  split
  · next v h => simp [Memory.read_write, h]
  · next h => by_cases hb : b = 0 <;> simp [hb, h]

@[simp] theorem devOnDeassert_none (dev : Memory) : devOnDeassert dev none = dev := rfl

end Sys2Proof.Machine
end

