-- ==== Sys2Proof/Laws/State.lean ====
section
/-! SUPPORT. One lemma per field for each operation that updates the state, so that no proof unfolds a record update. -/

namespace Sys2Proof.Machine

variable (s : State)
/-! ## setShadow -/
@[simp] theorem setShadow_initialized (r : ShadowReg) (v : U16) : (setShadow r v s).initialized = s.initialized := rfl
@[simp] theorem setShadow_line (r : ShadowReg) (v : U16) : (setShadow r v s).line = s.line := rfl
@[simp] theorem setShadow_cs (r : ShadowReg) (v : U16) : (setShadow r v s).cs = s.cs := rfl
@[simp] theorem setShadow_phase (r : ShadowReg) (v : U16) : (setShadow r v s).phase = s.phase := rfl
@[simp] theorem setShadow_trace (r : ShadowReg) (v : U16) : (setShadow r v s).trace = s.trace := rfl
@[simp] theorem setShadow_pc (r : ShadowReg) (v : U16) : (setShadow r v s).pc = s.pc := rfl
@[simp] theorem setShadow_resp (r : ShadowReg) (v : U16) : (setShadow r v s).resp = s.resp := rfl
@[simp] theorem setShadow_fault (r : ShadowReg) (v : U16) : (setShadow r v s).fault = s.fault := rfl
@[simp] theorem setShadow_dev (r : ShadowReg) (v : U16) : (setShadow r v s).dev = s.dev := rfl
@[simp] theorem setShadow_pendingLatch (r : ShadowReg) (v : U16) : (setShadow r v s).pendingLatch = s.pendingLatch := rfl
@[simp] theorem setShadow_disableClearsAll (r : ShadowReg) (v : U16) : (setShadow r v s).disableClearsAll = s.disableClearsAll := rfl
@[simp] theorem setShadow_draws (r : ShadowReg) (v : U16) : (setShadow r v s).draws = s.draws := rfl
@[simp] theorem setShadow_inputs (r : ShadowReg) (v : U16) : (setShadow r v s).inputs = s.inputs := rfl
@[simp] theorem setShadow_shadow (r : ShadowReg) (v : U16) : (setShadow r v s).shadow = s.shadow.set r v := rfl

theorem Shadow.get_set_same (x : Shadow) (r : ShadowReg) (v : U16) : (x.set r v).get r = v := by cases r <;> rfl

theorem Shadow.get_set_other (x : Shadow) (q r : ShadowReg) (v : U16) (h : q ≠ r) : (x.set r v).get q = x.get q := by
  cases q <;> cases r <;> first | rfl | exact absurd rfl h

theorem Shadow.set_comm (x : Shadow) (q r : ShadowReg) (v w : U16) (h : q ≠ r) :
    (x.set q v).set r w = (x.set r w).set q v := by
  cases q <;> cases r <;> first | rfl | exact absurd rfl h

@[simp] theorem Shadow.set_ctrl (x : Shadow) (v : U16) : x.set .ctrl v = { x with ctrl := v } := rfl
@[simp] theorem Shadow.set_torque (x : Shadow) (v : U16) : x.set .torque v = { x with torque := v } := rfl
@[simp] theorem Shadow.set_off (x : Shadow) (v : U16) : x.set .off v = { x with off := v } := rfl
@[simp] theorem Shadow.get_ctrl (x : Shadow) : x.get .ctrl = x.ctrl := rfl
@[simp] theorem Shadow.get_torque (x : Shadow) : x.get .torque = x.torque := rfl
@[simp] theorem Shadow.get_off (x : Shadow) : x.get .off = x.off := rfl
@[simp] theorem Shadow.get_blank (x : Shadow) : x.get .blank = x.blank := rfl
@[simp] theorem Shadow.get_decay (x : Shadow) : x.get .decay = x.decay := rfl
@[simp] theorem Shadow.get_status (x : Shadow) : x.get .status = x.status := rfl

/-! ## observe: one bus event -/

variable (e : BusEvent)

@[simp] theorem observe_shadow : (observe e s).shadow = s.shadow := by cases e <;> rfl
@[simp] theorem observe_initialized : (observe e s).initialized = s.initialized := by cases e <;> rfl
@[simp] theorem observe_line : (observe e s).line = s.line := by cases e <;> rfl
@[simp] theorem observe_phase : (observe e s).phase = s.phase := by cases e <;> rfl
@[simp] theorem observe_pc : (observe e s).pc = s.pc := by cases e <;> rfl
@[simp] theorem observe_resp : (observe e s).resp = s.resp := by cases e <;> rfl
@[simp] theorem observe_fault : (observe e s).fault = s.fault := by cases e <;> rfl
@[simp] theorem observe_disableClearsAll : (observe e s).disableClearsAll = s.disableClearsAll := by cases e <;> rfl
@[simp] theorem observe_inputs : (observe e s).inputs = s.inputs := by cases e <;> rfl
@[simp] theorem observe_trace : (observe e s).trace = s.trace ++ [e] := by cases e <;> rfl

/-! ## advance: one bus event of a transaction -/

@[simp] theorem advance_shadow : (advance s e).shadow = s.shadow := by cases e <;> rfl
@[simp] theorem advance_initialized : (advance s e).initialized = s.initialized := by cases e <;> rfl
@[simp] theorem advance_line : (advance s e).line = s.line := by cases e <;> rfl
@[simp] theorem advance_pc : (advance s e).pc = s.pc := by cases e <;> rfl
@[simp] theorem advance_resp : (advance s e).resp = s.resp := by cases e <;> rfl
@[simp] theorem advance_fault : (advance s e).fault = s.fault := by cases e <;> rfl
@[simp] theorem advance_disableClearsAll : (advance s e).disableClearsAll = s.disableClearsAll := by cases e <;> rfl
@[simp] theorem advance_inputs : (advance s e).inputs = s.inputs := by cases e <;> rfl
@[simp] theorem advance_trace : (advance s e).trace = s.trace ++ [e] := by cases e <;> rfl
@[simp] theorem advance_phase : (advance s e).phase = phaseAfter s.phase e := rfl

/-! ## transact: one transaction -/

variable (out : U16)

@[simp] theorem transact_shadow : (transact out s).shadow = s.shadow := rfl
@[simp] theorem transact_initialized : (transact out s).initialized = s.initialized := rfl
@[simp] theorem transact_line : (transact out s).line = s.line := rfl
@[simp] theorem transact_pc : (transact out s).pc = s.pc := rfl
@[simp] theorem transact_resp : (transact out s).resp = s.resp := rfl
@[simp] theorem transact_fault : (transact out s).fault = s.fault := rfl
@[simp] theorem transact_disableClearsAll : (transact out s).disableClearsAll = s.disableClearsAll := rfl
@[simp] theorem transact_inputs : (transact out s).inputs = s.inputs := rfl
@[simp] theorem transact_cs : (transact out s).cs = .deasserted := rfl
@[simp] theorem transact_phase : (transact out s).phase = .idle := rfl
@[simp] theorem transact_draws : (transact out s).draws = s.draws + 1 := rfl
@[simp] theorem transact_pendingLatch : (transact out s).pendingLatch = none := rfl
@[simp] theorem transact_dev :
    (transact out s).dev = devOnDeassert s.dev (latchOnXfer .asserted out s.pendingLatch) := rfl
@[simp] theorem transact_trace :
    (transact out s).trace = s.trace ++ [.csAssert, .xfer out (nextDraw s), .csDeassert] := by
  simp [transact]

/-! ## Resets -/

@[simp] theorem blockReset_shadow : (blockReset s).shadow = Shadow.reset := rfl
@[simp] theorem blockReset_initialized : (blockReset s).initialized = false := rfl
@[simp] theorem blockReset_line : (blockReset s).line = none := rfl
@[simp] theorem blockReset_cs : (blockReset s).cs = .unbound := rfl
@[simp] theorem blockReset_phase : (blockReset s).phase = .idle := rfl
@[simp] theorem blockReset_trace : (blockReset s).trace = s.trace ++ [.reset] := rfl
@[simp] theorem blockReset_pc : (blockReset s).pc = 0 := rfl
@[simp] theorem blockReset_resp : (blockReset s).resp = none := rfl
@[simp] theorem blockReset_fault : (blockReset s).fault = none := rfl
@[simp] theorem blockReset_dev : (blockReset s).dev = devOnCut s.phase s.dev s.pendingLatch := rfl
@[simp] theorem blockReset_pendingLatch : (blockReset s).pendingLatch = latchOnCut s.phase s.pendingLatch := rfl
@[simp] theorem blockReset_disableClearsAll : (blockReset s).disableClearsAll = s.disableClearsAll := rfl
@[simp] theorem blockReset_draws : (blockReset s).draws = s.draws := rfl
@[simp] theorem blockReset_inputs : (blockReset s).inputs = s.inputs := rfl
@[simp] theorem powerCycle_shadow : (powerCycle s).shadow = Shadow.reset := rfl
@[simp] theorem powerCycle_initialized : (powerCycle s).initialized = false := rfl
@[simp] theorem powerCycle_line : (powerCycle s).line = none := rfl
@[simp] theorem powerCycle_cs : (powerCycle s).cs = .unbound := rfl
@[simp] theorem powerCycle_phase : (powerCycle s).phase = .idle := rfl
@[simp] theorem powerCycle_trace : (powerCycle s).trace = [.reset] := rfl
@[simp] theorem powerCycle_pc : (powerCycle s).pc = 0 := rfl
@[simp] theorem powerCycle_resp : (powerCycle s).resp = none := rfl
@[simp] theorem powerCycle_fault : (powerCycle s).fault = none := rfl
@[simp] theorem powerCycle_dev : (powerCycle s).dev = devDefaults := rfl
@[simp] theorem powerCycle_pendingLatch : (powerCycle s).pendingLatch = none := rfl
@[simp] theorem powerCycle_disableClearsAll : (powerCycle s).disableClearsAll = s.disableClearsAll := rfl
@[simp] theorem powerCycle_draws : (powerCycle s).draws = s.draws := rfl
@[simp] theorem powerCycle_inputs : (powerCycle s).inputs = s.inputs := rfl
@[simp] theorem deviceReset_shadow : (deviceReset s).shadow = s.shadow := rfl
@[simp] theorem deviceReset_initialized : (deviceReset s).initialized = s.initialized := rfl
@[simp] theorem deviceReset_line : (deviceReset s).line = s.line := rfl
@[simp] theorem deviceReset_cs : (deviceReset s).cs = s.cs := rfl
@[simp] theorem deviceReset_phase : (deviceReset s).phase = s.phase := rfl
@[simp] theorem deviceReset_trace : (deviceReset s).trace = s.trace := rfl
@[simp] theorem deviceReset_pc : (deviceReset s).pc = s.pc := rfl
@[simp] theorem deviceReset_resp : (deviceReset s).resp = s.resp := rfl
@[simp] theorem deviceReset_fault : (deviceReset s).fault = s.fault := rfl
@[simp] theorem deviceReset_dev : (deviceReset s).dev = devDefaults := rfl
@[simp] theorem deviceReset_pendingLatch : (deviceReset s).pendingLatch = none := rfl
@[simp] theorem deviceReset_disableClearsAll : (deviceReset s).disableClearsAll = s.disableClearsAll := rfl
@[simp] theorem deviceReset_draws : (deviceReset s).draws = s.draws := rfl
@[simp] theorem deviceReset_inputs : (deviceReset s).inputs = s.inputs := rfl
@[simp] theorem stepSelfClear_shadow : (stepSelfClear s).shadow = s.shadow := rfl
@[simp] theorem stepSelfClear_initialized : (stepSelfClear s).initialized = s.initialized := rfl
@[simp] theorem stepSelfClear_line : (stepSelfClear s).line = s.line := rfl
@[simp] theorem stepSelfClear_cs : (stepSelfClear s).cs = s.cs := rfl
@[simp] theorem stepSelfClear_phase : (stepSelfClear s).phase = s.phase := rfl
@[simp] theorem stepSelfClear_trace : (stepSelfClear s).trace = s.trace := rfl
@[simp] theorem stepSelfClear_pc : (stepSelfClear s).pc = s.pc := rfl
@[simp] theorem stepSelfClear_resp : (stepSelfClear s).resp = s.resp := rfl
@[simp] theorem stepSelfClear_fault : (stepSelfClear s).fault = s.fault := rfl
@[simp] theorem stepSelfClear_dev : (stepSelfClear s).dev = devOnSelfClear s.dev := rfl
@[simp] theorem stepSelfClear_pendingLatch : (stepSelfClear s).pendingLatch = s.pendingLatch := rfl
@[simp] theorem stepSelfClear_disableClearsAll : (stepSelfClear s).disableClearsAll = s.disableClearsAll := rfl
@[simp] theorem stepSelfClear_draws : (stepSelfClear s).draws = s.draws := rfl
@[simp] theorem stepSelfClear_inputs : (stepSelfClear s).inputs = s.inputs := rfl

end Sys2Proof.Machine
end

