-- ==== Sys2Proof/Laws/Ops.lean ====
section
/-! SUPPORT. One lemma per shared operation that says once everything it can do. -/

namespace Sys2Proof.Machine

variable {s t : State} {w : U32} {run : Result}

/-- The common gate of R110: a halted block takes no step. -/
theorem whenRunning_eq_next (h : whenRunning s run = .next t) :
    (s.fault.isSome = true ∧ t = s) ∨ (s.fault = none ∧ run = .next t) := by
  unfold whenRunning at h
  split at h
  · next hf => cases h; exact .inl ⟨hf, rfl⟩
  · next hf => exact .inr ⟨by simpa using hf, h⟩

theorem whenRunning_running (h : s.fault = none) : whenRunning s run = run := by
  simp [whenRunning, h]

theorem whenRunning_halted (h : s.fault ≠ none) : whenRunning s run = .next s := by
  simp [whenRunning, Option.isSome_iff_ne_none, h]

theorem raiseFault_eq_next {r : FaultReason} (h : raiseFault r w s = .next t) :
    t = { s with fault := some { reason := r, word := w, atPc := s.pc } } := by
  cases h; rfl

theorem complete_eq_next {r : Option U16} (h : complete r s = .next t) :
    t = { s with resp := r, pc := s.pc + 1 } := by
  cases h; rfl

/-- The gate of every command but INIT and READ_SHADOW: halted, not initialised, or it runs (R110). -/
theorem whenInitialized_eq_next (h : whenInitialized w s run = .next t) :
    (s.fault.isSome = true ∧ t = s) ∨
    (s.fault = none ∧ s.initialized = false ∧
      t = { s with fault := some { reason := .notInitialized, word := w, atPc := s.pc } }) ∨
    (s.fault = none ∧ s.initialized = true ∧ run = .next t) := by
  unfold whenInitialized at h
  rcases whenRunning_eq_next h with h | ⟨hf, h⟩
  · exact .inl h
  · split at h
    · next hi => exact .inr (.inr ⟨hf, hi, h⟩)
    · next hi => exact .inr (.inl ⟨hf, by simpa using hi, raiseFault_eq_next h⟩)

theorem whenInitialized_ready (hf : s.fault = none) (hi : s.initialized = true) :
    whenInitialized w s run = run := by
  simp [whenInitialized, whenRunning, hf, hi]

theorem whenInitialized_before_init (hf : s.fault = none) (hi : s.initialized = false) :
    whenInitialized w s run = raiseFault .notInitialized w s := by
  simp [whenInitialized, whenRunning, hf, hi]

/-- `MemWrite` and the end of the command: the width check, or one frame (R112). -/
theorem memWrite_eq_next {a : U3} {v : U16} {prepare : State → State} (h : memWrite w a v prepare s = .next t) :
    (tooWide v = true ∧ t = { s with fault := some { reason := .writeValueTooWide, word := w, atPc := s.pc } }) ∨
    (tooWide v = false ∧
      t = { transact (writeFrameWord a v) (prepare s) with
            resp := none, pc := (transact (writeFrameWord a v) (prepare s)).pc + 1 }) := by
  unfold memWrite at h
  split at h
  · next hw => exact .inl ⟨hw, raiseFault_eq_next h⟩
  · next hw => exact .inr ⟨by simpa using hw, complete_eq_next h⟩

/-- A controller setter: halted, before INIT, a value too wide to send, or the new shadow and one frame of it (R130). -/
theorem setter_eq_next {i : Instr} {r : ShadowReg} {new : U16} (h : setter i r new s = .next t) :
    (s.fault.isSome = true ∧ t = s) ∨
    (s.fault = none ∧ ∃ reason,
      t = { s with fault := some { reason := reason, word := i.word, atPc := s.pc } }) ∨
    (s.fault = none ∧ s.initialized = true ∧ tooWide new = false ∧
      t = { transact (writeFrameWord r.addr new) (setShadow r new s) with resp := none, pc := s.pc + 1 }) := by
  rcases whenInitialized_eq_next h with h | ⟨hf, _, h⟩ | ⟨hf, hi, h⟩
  · exact .inl h
  · exact .inr (.inl ⟨hf, _, h⟩)
  · rcases memWrite_eq_next h with ⟨_, h⟩ | ⟨hw, h⟩
    · exact .inr (.inl ⟨hf, _, h⟩)
    · exact .inr (.inr ⟨hf, hi, hw, h⟩)

theorem setter_ready {i : Instr} {r : ShadowReg} {new : U16} (hf : s.fault = none) (hi : s.initialized = true)
    (hw : tooWide new = false) :
    setter i r new s =
      .next { transact (writeFrameWord r.addr new) (setShadow r new s) with resp := none, pc := s.pc + 1 } := by
  rw [setter, whenInitialized_ready hf hi]
  simp [memWrite, hw, complete]

/-- What a fault record of a word that does not decode leaves (R201). -/
theorem illegalPacket_eq_next {p : Packet} (h : illegalPacket p s = .next t) :
    (s.fault.isSome = true ∧ t = s) ∨
    (s.fault = none ∧ ∃ w, p = .command w ∧
      t = { s with fault := some { reason := .illegalCommand, word := w, atPc := s.pc } }) := by
  cases p with
  | command w =>
    rcases whenRunning_eq_next h with h | ⟨hf, h⟩
    · exact .inl h
    · exact .inr ⟨hf, w, rfl, raiseFault_eq_next h⟩
  | frame f =>
    rcases whenRunning_eq_next h with h | ⟨_, h⟩
    · exact .inl h
    · cases h

/-- What a packet does: it is illegal, or its instruction is executed (R110). -/
theorem runPacket_eq_next {ex : Instr → State → Result} {p : Packet} (h : runPacket ex p s = .next t) :
    (∃ i, decode p = .instr i ∧ ex i s = .next t) ∨
    (∃ why, decode p = .illegal why ∧ illegalPacket p s = .next t) := by
  unfold runPacket at h
  split at h
  · next i hd => exact .inl ⟨i, hd, h⟩
  · next why hd => exact .inr ⟨why, hd, h⟩

/-- Everything one step can do: wait, run a packet, cut one by a reset, reset block, both or device, or let the device
clear its STEP bit. -/
theorem step_eq_next (h : step s = .next t) :
    (s.inputs = [] ∧ t = s) ∨
    (∃ p rest, s.inputs = .issue p :: rest ∧ runPacket exec p { s with inputs := rest } = .next t) ∨
    (∃ p k rest u, s.inputs = .issueCut p k :: rest ∧ runPacket exec p { s with inputs := rest } = .next u ∧
      t = cutByReset k { s with inputs := rest } u) ∨
    (∃ rest, s.inputs = .blockReset :: rest ∧ t = blockReset { s with inputs := rest }) ∨
    (∃ rest, s.inputs = .powerCycle :: rest ∧ t = powerCycle { s with inputs := rest }) ∨
    (∃ rest, s.inputs = .deviceReset :: rest ∧ t = deviceReset { s with inputs := rest }) ∨
    (∃ rest, s.inputs = .stepSelfClear :: rest ∧ t = stepSelfClear { s with inputs := rest }) := by
  unfold step serve at h
  split at h
  · next hi => cases h; exact .inl ⟨hi, rfl⟩
  · next inp rest hi =>
    cases inp with
    | issue p => exact .inr (.inl ⟨p, rest, hi, h⟩)
    | issueCut p k =>
      simp only [respondTo] at h
      split at h
      · next u hu => cases h; exact .inr (.inr (.inl ⟨p, k, rest, u, hi, hu, rfl⟩))
      · cases h
      · cases h
    | blockReset => cases h; exact .inr (.inr (.inr (.inl ⟨rest, hi, rfl⟩)))
    | powerCycle => cases h; exact .inr (.inr (.inr (.inr (.inl ⟨rest, hi, rfl⟩))))
    | deviceReset => cases h; exact .inr (.inr (.inr (.inr (.inr (.inl ⟨rest, hi, rfl⟩)))))
    | stepSelfClear => cases h; exact .inr (.inr (.inr (.inr (.inr (.inr ⟨rest, hi, rfl⟩)))))

/-- A packet the host presents is run on the state it was presented to. -/
theorem step_present (p : Packet) : step (present p s) = runPacket exec p s := rfl

/-- The setters, by their constructor: each is `setter` on its register and new value (R130). -/
theorem exec_enable : exec .enable s = setter .enable .ctrl (s.shadow.ctrl ||| 0x0001) s := rfl
theorem exec_disable :
    exec .disable s = setter .disable .ctrl (if s.disableClearsAll then 0x0000 else s.shadow.ctrl &&& ~~~0x0001) s := rfl
theorem exec_flipDir : exec .flipDir s = setter .flipDir .ctrl (s.shadow.ctrl ^^^ 0x0002) s := rfl
theorem exec_step : exec .step s = setter .step .ctrl (s.shadow.ctrl ||| 0x0004) s := rfl
theorem exec_setStepMode (m : U16) :
    exec (.setStepMode m) s =
      setter (.setStepMode m) .ctrl (merge s.shadow.ctrl ctrlMode ((encMode m).setWidth 16)) s := rfl
theorem exec_setExtStall : exec .setExtStall s = setter .setExtStall .ctrl (s.shadow.ctrl ||| 0x0080) s := rfl
theorem exec_setIntStall : exec .setIntStall s = setter .setIntStall .ctrl (s.shadow.ctrl &&& ~~~0x0080) s := rfl
theorem exec_setGain (g : U16) :
    exec (.setGain g) s = setter (.setGain g) .ctrl (merge s.shadow.ctrl ctrlGain ((encGain g).setWidth 16)) s := rfl
theorem exec_setDeadTime (x : U16) :
    exec (.setDeadTime x) s =
      setter (.setDeadTime x) .ctrl (merge s.shadow.ctrl ctrlDtime ((encDeadTime x).setWidth 16)) s := rfl
theorem exec_setTorque (v : U8) :
    exec (.setTorque v) s = setter (.setTorque v) .torque (merge s.shadow.torque torqueVal (v.setWidth 16)) s := rfl
theorem exec_setOffTime (v : U8) :
    exec (.setOffTime v) s = setter (.setOffTime v) .off (merge s.shadow.off offToff (v.setWidth 16)) s := rfl
theorem exec_setPwmMode (m : U16) :
    exec (.setPwmMode m) s = setter (.setPwmMode m) .off (s.shadow.off ^^^ 0x0100) s := rfl

end Sys2Proof.Machine
end

