-- ==== Sys2Proof/Laws/PerInstr.lean ====
section
/-! SUPPORT. A law of every instruction as syntax, one lemma per constructor: the word the encoder gives has the opcode of
30_encoding.md R81 and a zero reserved field (R80), or is a frame of the pattern of R90 or R91. -/

namespace Sys2Proof.Laws.EncodingShape

/-- The opcode column of R81; a frame has none. -/
def opcodeOf : Instr → Option U8
  | .init _ => some 0x00
  | .read _ => some 0x01
  | .write _ _ => some 0x02
  | .enable => some 0x03
  | .disable => some 0x04
  | .flipDir => some 0x05
  | .step => some 0x06
  | .setStepMode _ => some 0x07
  | .setExtStall => some 0x08
  | .setIntStall => some 0x09
  | .setGain _ => some 0x0A
  | .setDeadTime _ => some 0x0B
  | .setTorque _ => some 0x0C
  | .setOffTime _ => some 0x0D
  | .setPwmMode _ => some 0x0E
  | .readShadow _ => some 0x0F
  | .readFrame _ => none
  | .writeFrame _ _ => none

/-- The shape of the word of `i`. -/
def Statement (i : Instr) : Prop :=
  match encode i with
  | .command w => rsvField w = 0 ∧ opcodeOf i = some (opcField w)
  | .frame f => opcodeOf i = none ∧ (frameIsRead f = true → frameData f = 0)

theorem init (line : U16) : Statement (.init line) :=
  ⟨rsvField_commandWord _ _ _, congrArg some (opcField_commandWord _ _ _).symm⟩

theorem read (a : U3) : Statement (.read a) :=
  ⟨rsvField_commandWord _ _ _, congrArg some (opcField_commandWord _ _ _).symm⟩

theorem write (a : U3) (v : U16) : Statement (.write a v) :=
  ⟨rsvField_commandWord _ _ _, congrArg some (opcField_commandWord _ _ _).symm⟩

theorem enable : Statement .enable :=
  ⟨rsvField_commandWord _ _ _, congrArg some (opcField_commandWord _ _ _).symm⟩

theorem disable : Statement .disable :=
  ⟨rsvField_commandWord _ _ _, congrArg some (opcField_commandWord _ _ _).symm⟩

theorem flipDir : Statement .flipDir :=
  ⟨rsvField_commandWord _ _ _, congrArg some (opcField_commandWord _ _ _).symm⟩

theorem step : Statement .step :=
  ⟨rsvField_commandWord _ _ _, congrArg some (opcField_commandWord _ _ _).symm⟩

theorem setStepMode (m : U16) : Statement (.setStepMode m) :=
  ⟨rsvField_commandWord _ _ _, congrArg some (opcField_commandWord _ _ _).symm⟩

theorem setExtStall : Statement .setExtStall :=
  ⟨rsvField_commandWord _ _ _, congrArg some (opcField_commandWord _ _ _).symm⟩

theorem setIntStall : Statement .setIntStall :=
  ⟨rsvField_commandWord _ _ _, congrArg some (opcField_commandWord _ _ _).symm⟩

theorem setGain (g : U16) : Statement (.setGain g) :=
  ⟨rsvField_commandWord _ _ _, congrArg some (opcField_commandWord _ _ _).symm⟩

theorem setDeadTime (t : U16) : Statement (.setDeadTime t) :=
  ⟨rsvField_commandWord _ _ _, congrArg some (opcField_commandWord _ _ _).symm⟩

theorem setTorque (v : U8) : Statement (.setTorque v) :=
  ⟨rsvField_commandWord _ _ _, congrArg some (opcField_commandWord _ _ _).symm⟩

theorem setOffTime (v : U8) : Statement (.setOffTime v) :=
  ⟨rsvField_commandWord _ _ _, congrArg some (opcField_commandWord _ _ _).symm⟩

theorem setPwmMode (mode : U16) : Statement (.setPwmMode mode) :=
  ⟨rsvField_commandWord _ _ _, congrArg some (opcField_commandWord _ _ _).symm⟩

theorem readShadow (a : U3) : Statement (.readShadow a) :=
  ⟨rsvField_commandWord _ _ _, congrArg some (opcField_commandWord _ _ _).symm⟩

theorem readFrame (a : U3) : Statement (.readFrame a) :=
  ⟨rfl, fun _ => by revert a; decide⟩

theorem writeFrame (a : U3) (d : U12) : Statement (.writeFrame a d) :=
  ⟨rfl, fun h => by rw [frameIsRead_writeFrameWord a _ (narrow_setWidth d)] at h; cases h⟩

end Sys2Proof.Laws.EncodingShape
end

