-- ==== Sys2Proof/Laws/Setters.lean ====
section
/-! SUPPORT. The twelve setters as one shared operation over the summary table, and what each instruction can do. -/

namespace Sys2Proof.Machine

open Sys2Proof.Safety

/-- Merging into a field of bits 7 to 0 (42_controller_regs.md R170, R171). -/
theorem merge_low_byte (f : BitField) (h : (f.offset, f.width) = (0, 8)) (x c : U16) :
    merge x f c = (x &&& 0xFF00) ||| c := by
  obtain ⟨h1, h2⟩ := Prod.mk.inj h
  have hm : fieldMask f = 0x00FF := by rw [fieldMask, h1, h2]; decide
  rw [merge, hm, h1, BitVec.shiftLeft_zero]
  rfl

/-- Every setter is `setter` on its row of the summary table (42_controller_regs.md R185). -/
theorem exec_of_setterTable {i : Instr} {s : State} {r : ShadowReg} {new : U16}
    (h : setterTable s.shadow s.disableClearsAll i = some (r, new)) : exec i s = setter i r new s := by
  cases i <;> simp only [setterTable, Option.some.injEq, Prod.mk.injEq, reduceCtorEq] at h <;>
    obtain ⟨rfl, rfl⟩ := h
  case setTorque v => rw [← merge_low_byte torqueVal rfl]; rfl
  case setOffTime v => rw [← merge_low_byte offToff rfl]; rfl
  all_goals rfl

/-- The table has a row for exactly the instructions with a target. -/
theorem setterTable_of_targetOf {i : Instr} {r : ShadowReg} (h : targetOf i = some r) (x : Shadow) (c : Bool) :
    ∃ new, setterTable x c i = some (r, new) := by
  cases i <;> simp only [targetOf, setterTable, Option.map_some, Option.map_none, Option.some.injEq, reduceCtorEq] at h <;>
    subst h <;> exact ⟨_, rfl⟩

theorem exec_of_targetOf {i : Instr} {r : ShadowReg} (h : targetOf i = some r) (s : State) :
    ∃ new, setterTable s.shadow s.disableClearsAll i = some (r, new) ∧ exec i s = setter i r new s := by
  obtain ⟨new, hn⟩ := setterTable_of_targetOf h s.shadow s.disableClearsAll
  exact ⟨new, hn, exec_of_setterTable hn⟩

theorem tooWide_eq_false {v : U16} : tooWide v = false ↔ Narrow v := by
  simp [tooWide, Narrow]

theorem tooWide_eq_true {v : U16} : tooWide v = true ↔ ¬ Narrow v := by
  simp [tooWide, Narrow]

theorem bit_of_narrow {v : U16} (h : Narrow v) (k : Nat) (hk : 12 ≤ k) : v.getLsbD k = false := by
  by_cases h16 : k < 16
  · have := congrArg (fun x : BitVec 4 => x.getLsbD (k - 12)) h
    simpa [show k - 12 < 4 by omega, show 12 + (k - 12) = k by omega] using this
  · exact BitVec.getLsbD_of_ge v k (by omega)

theorem narrow_of_bits {v : U16} (h : ∀ k, 12 ≤ k → k < 16 → v.getLsbD k = false) : Narrow v := by
  apply BitVec.eq_of_getLsbD_eq
  intro i hi
  simp [hi, h (12 + i) (by omega) (by omega)]

theorem narrow_or {v w : U16} (hv : Narrow v) (hw : Narrow w) : Narrow (v ||| w) :=
  narrow_of_bits fun k h _ => by simp [bit_of_narrow hv k h, bit_of_narrow hw k h]

theorem narrow_and {v w : U16} (hv : Narrow v) : Narrow (v &&& w) :=
  narrow_of_bits fun k h _ => by simp [bit_of_narrow hv k h]

theorem narrow_xor {v w : U16} (hv : Narrow v) (hw : Narrow w) : Narrow (v ^^^ w) :=
  narrow_of_bits fun k h _ => by simp [bit_of_narrow hv k h, bit_of_narrow hw k h]

theorem narrow_mode : ∀ c : U4, Narrow (c.setWidth 16 <<< 3) := by decide
theorem narrow_gain : ∀ c : U2, Narrow (c.setWidth 16 <<< 8) := by decide
theorem narrow_deadTime : ∀ c : U2, Narrow (c.setWidth 16 <<< 10) := by decide
theorem narrow_byte (v : U8) : Narrow (v.setWidth 16) :=
  narrow_of_bits fun k h _ => by simp [BitVec.getLsbD_of_ge v k (by omega)]

/-- From narrow shadows every setter makes a narrow value, so none faults on its width (10_state.md R27). -/
theorem narrow_of_setterTable {i : Instr} {s : State} {r : ShadowReg} {new : U16} (hs : ShadowNarrow s)
    (h : setterTable s.shadow s.disableClearsAll i = some (r, new)) : Narrow new := by
  obtain ⟨hc, ht, ho, -⟩ := hs
  cases i <;> simp only [setterTable, Option.some.injEq, Prod.mk.injEq, reduceCtorEq] at h <;> obtain ⟨rfl, rfl⟩ := h
  case enable => exact narrow_or hc (by decide)
  case disable => split; decide; exact narrow_and hc
  case flipDir => exact narrow_xor hc (by decide)
  case step => exact narrow_or hc (by decide)
  case setStepMode m => exact narrow_or (narrow_and hc) (narrow_mode _)
  case setExtStall => exact narrow_or hc (by decide)
  case setIntStall => exact narrow_and hc
  case setGain g => exact narrow_or (narrow_and hc) (narrow_gain _)
  case setDeadTime t => exact narrow_or (narrow_and hc) (narrow_deadTime _)
  case setTorque v => exact narrow_or (narrow_and ht) (narrow_byte v)
  case setOffTime v => exact narrow_or (narrow_and ho) (narrow_byte v)
  case setPwmMode m => exact narrow_xor ho (by decide)

/-- Everything an instruction can do when it answers a next state: nothing (halted), a fault record, INIT, the shadow
read, one read frame, one write frame, or a setter's shadow and write frame. -/
theorem exec_eq_next {i : Instr} {s t : State} (h : exec i s = .next t) :
    (s.fault.isSome = true ∧ t = s) ∨
    (s.fault = none ∧ ∃ reason, t = { s with fault := some { reason := reason, word := i.word, atPc := s.pc } }) ∨
    (s.fault = none ∧ s.initialized = false ∧ ∃ l, i = .init l ∧
      t = { observe .csDeassert (observe (.bind l) s) with
            initialized := true, line := some l, resp := none, pc := s.pc + 1 }) ∨
    (s.fault = none ∧ ∃ a r, i = .readShadow a ∧ shadowAt a = some r ∧
      t = { s with resp := some (s.shadow.get r), pc := s.pc + 1 }) ∨
    (s.fault = none ∧ s.initialized = true ∧ ∃ a, i = .read a ∧
      t = { transact (readFrameWord a) s with resp := some (nextDraw s), pc := s.pc + 1 }) ∨
    (s.fault = none ∧ s.initialized = true ∧ ∃ a, i = .readFrame a ∧ t = transact (readFrameWord a) s) ∨
    (s.fault = none ∧ s.initialized = true ∧ ∃ a v, i = .write a v ∧ Narrow v ∧
      t = { transact (writeFrameWord a v) s with resp := none, pc := s.pc + 1 }) ∨
    (s.fault = none ∧ s.initialized = true ∧ ∃ a d, i = .writeFrame a d ∧
      t = transact (writeFrameWord a (d.setWidth 16)) s) ∨
    (s.fault = none ∧ s.initialized = true ∧ ∃ r new, setterTable s.shadow s.disableClearsAll i = some (r, new) ∧
      Narrow new ∧
      t = { transact (writeFrameWord r.addr new) (setShadow r new s) with resp := none, pc := s.pc + 1 }) := by
  have hset : ∀ r, targetOf i = some r → _ := fun r hr => (exec_of_targetOf hr s)
  cases i
  case init l =>
    rcases whenRunning_eq_next h with h | ⟨hf, h⟩
    · exact .inl h
    · split at h
      · exact .inr (.inl ⟨hf, _, raiseFault_eq_next h⟩)
      · next hi => exact .inr (.inr (.inl ⟨hf, by simpa using hi, l, rfl, complete_eq_next h⟩))
  case readShadow a =>
    rcases whenRunning_eq_next h with h | ⟨hf, h⟩
    · exact .inl h
    · split at h
      · next r hr => exact .inr (.inr (.inr (.inl ⟨hf, a, r, rfl, hr, complete_eq_next h⟩)))
      · exact .inr (.inl ⟨hf, _, raiseFault_eq_next h⟩)
  case read a =>
    rcases whenInitialized_eq_next h with h | ⟨hf, _, h⟩ | ⟨hf, hi, h⟩
    · exact .inl h
    · exact .inr (.inl ⟨hf, _, h⟩)
    · exact .inr (.inr (.inr (.inr (.inl ⟨hf, hi, a, rfl, complete_eq_next h⟩))))
  case readFrame a =>
    rcases whenInitialized_eq_next h with h | ⟨hf, _, h⟩ | ⟨hf, hi, h⟩
    · exact .inl h
    · exact .inr (.inl ⟨hf, _, h⟩)
    · cases h; exact .inr (.inr (.inr (.inr (.inr (.inl ⟨hf, hi, a, rfl, rfl⟩)))))
  case write a v =>
    rcases whenInitialized_eq_next h with h | ⟨hf, _, h⟩ | ⟨hf, hi, h⟩
    · exact .inl h
    · exact .inr (.inl ⟨hf, _, h⟩)
    · rcases memWrite_eq_next h with ⟨_, h⟩ | ⟨hw, h⟩
      · exact .inr (.inl ⟨hf, _, h⟩)
      · exact .inr (.inr (.inr (.inr (.inr (.inr (.inl ⟨hf, hi, a, v, rfl, tooWide_eq_false.1 hw, h⟩))))))
  case writeFrame a d =>
    rcases whenInitialized_eq_next h with h | ⟨hf, _, h⟩ | ⟨hf, hi, h⟩
    · exact .inl h
    · exact .inr (.inl ⟨hf, _, h⟩)
    · cases h; exact .inr (.inr (.inr (.inr (.inr (.inr (.inr (.inl ⟨hf, hi, a, d, rfl, rfl⟩)))))))
  all_goals
    obtain ⟨new, hn, he⟩ := hset _ rfl
    rw [he] at h
    rcases setter_eq_next h with h | ⟨hf, _, h⟩ | ⟨hf, hi, hw, h⟩
    · exact .inl h
    · exact .inr (.inl ⟨hf, _, h⟩)
    · exact .inr (.inr (.inr (.inr (.inr (.inr (.inr (.inr ⟨hf, hi, _, new, hn, tooWide_eq_false.1 hw, h⟩)))))))

end Sys2Proof.Machine
end

