-- ==== Sys2Proof/Tests/Slice0.lean ====
section
/-! SUPPORT. Tests. Expected values come from spec/95_test_vectors.md (V numbers, S numbers) or from the tables of
spec/30_encoding.md R81 and R92, written out by hand; the witnesses at the end meet the hypotheses of the statements. -/

namespace Sys2Proof.Tests

open Sys2Proof Sys2Proof.Machine Sys2Proof.Safety

/-! ## Helpers -/

/-- The step answers a next state with the property. -/
def sees (r : Result) (p : State → Bool) : Bool :=
  match r with
  | .next t => p t
  | .fault _ => false
  | .refused _ => false

/-- A bus event without the draw. -/
def shape : BusEvent → BusEvent
  | .xfer out _ => .xfer out 0
  | .bind l => .bind l
  | .csAssert => .csAssert
  | .csDeassert => .csDeassert
  | .reset => .reset

/-- The trace of `t` is `old` and then `T(out)` (95_test_vectors.md, conventions). -/
def sends (old : State) (out : U16) (t : State) : Bool :=
  t.trace.map shape == old.trace.map shape ++ [.csAssert, .xfer out 0, .csDeassert]

/-- The initialised block with another CTRL shadow. -/
def withCtrl (v : U16) : State :=
  { initialisedBlock with shadow := { initialisedBlock.shadow with ctrl := v } }

/-- The initialised block with another OFF shadow. -/
def withOff (v : U16) : State :=
  { initialisedBlock with shadow := { initialisedBlock.shadow with off := v } }

/-- The initialised block under the parameter setting of the original code (R136). -/
def clearsAll : State := { initialisedBlock with disableClearsAll := true }

/-- A halted block. -/
def halted : State :=
  { initialisedBlock with fault := some { reason := .writeValueTooWide, word := 0x02001000, atPc := 1 } }

/-- The initialised block with these inputs to come. -/
def facing (inputs : List Input) : State := { initialisedBlock with inputs := inputs }

/-- The block after a STEP, whose bit the device has yet to clear. -/
def steppedBlock : State :=
  { withCtrl 0x0C14 with dev := Memory.write devDefaults 0 0x0C14, inputs := [.stepSelfClear] }

/-! ## Well-formedness -/

/-- R81: READ_SHADOW of 0x5 and of 0x6 is no instruction. -/
theorem test_wellFormed_refuses : (Instr.readShadow 5).wellFormed = false ∧ (Instr.readShadow 6).wellFormed = false := by
  decide

/-- R81: the addresses on either side of the hole are. -/
theorem test_wellFormed_accepts : (Instr.readShadow 4).wellFormed = true ∧ (Instr.readShadow 7).wellFormed = true := by
  decide

/-! ## Decoding: one word or more for every constructor -/

/-- V1. -/
theorem test_decode_init : decode (.command 0x00000005) = .instr (.init 5) := by decide

/-- V2. -/
theorem test_decode_read : decode (.command 0x01070000) = .instr (.read 7) := by decide

/-- V3, V18. -/
theorem test_decode_write :
    decode (.command 0x02030080) = .instr (.write 3 0x0080) ∧
    decode (.command 0x02001000) = .instr (.write 0 0x1000) := by decide

/-- V4; bits of R80: opcode 00000011, all else 0. -/
theorem test_decode_enable :
    decode (.command 0b00000011_00000_000_0000000000000000) = .instr .enable := by decide

/-- R81. -/
theorem test_decode_disable : decode (.command 0x04000000) = .instr .disable := by decide

/-- R81. -/
theorem test_decode_flipDir : decode (.command 0x05000000) = .instr .flipDir := by decide

/-- R81. -/
theorem test_decode_step : decode (.command 0x06000000) = .instr .step := by decide

/-- V5. -/
theorem test_decode_setStepMode : decode (.command 0x07000100) = .instr (.setStepMode 256) := by decide

/-- R81. -/
theorem test_decode_setExtStall : decode (.command 0x08000000) = .instr .setExtStall := by decide

/-- R81. -/
theorem test_decode_setIntStall : decode (.command 0x09000000) = .instr .setIntStall := by decide

/-- V6. -/
theorem test_decode_setGain : decode (.command 0x0A000014) = .instr (.setGain 20) := by decide

/-- V7. -/
theorem test_decode_setDeadTime : decode (.command 0x0B000352) = .instr (.setDeadTime 850) := by decide

/-- V8; bits of R80: opcode 00001100, value 10000000. -/
theorem test_decode_setTorque :
    decode (.command 0b00001100_00000_000_00000000_10000000) = .instr (.setTorque 0x80) := by decide

/-- R171. -/
theorem test_decode_setOffTime : decode (.command 0x0D000010) = .instr (.setOffTime 0x10) := by decide

/-- V19. -/
theorem test_decode_setPwmMode : decode (.command 0x0E00FFFF) = .instr (.setPwmMode 0xFFFF) := by decide

/-- V9, S1. -/
theorem test_decode_readShadow :
    decode (.command 0x0F000000) = .instr (.readShadow 0) ∧
    decode (.command 0x0F070000) = .instr (.readShadow 7) := by decide

/-- R92: bit 12 of a read frame is `a[0]`. -/
theorem test_decode_readFrame :
    decode (.frame 0xF000) = .instr (.readFrame 7) ∧ decode (.frame 0x9000) = .instr (.readFrame 1) := by decide

/-- V27, V26. -/
theorem test_decode_writeFrame :
    decode (.frame 0x6123) = .instr (.writeFrame 6 0x123) ∧ decode (.frame 0x0FFF) = .instr (.writeFrame 0 0xFFF) := by
  decide

/-- V10 to V17. -/
theorem test_decode_illegal :
    decode (.command 0x0F050000) = .illegal .noSuchShadow ∧
    decode (.command 0x0C000100) = .illegal .operandNotZero ∧
    decode (.command 0x03010000) = .illegal .operandNotZero ∧
    decode (.command 0x01000001) = .illegal .operandNotZero ∧
    decode (.command 0x10000000) = .illegal .reservedOpcode ∧
    decode (.command 0xFF000000) = .illegal .reservedOpcode ∧
    decode (.command 0x00010000) = .illegal .operandNotZero ∧
    decode (.command 0x02081000) = .illegal .reservedField := by decide

/-- R93: bit 15 set and a data bit set. -/
theorem test_decode_no_frame : decode (.frame 0x8001) = .illegal .notAFrame := by decide

/-- The two widths of the opcode table. -/
theorem test_decodeTableWord :
    decodeTableWord 32 0x0B000190 = some (.setDeadTime 400) ∧ decodeTableWord 16 0xB000 = some (.readFrame 3) ∧
    decodeTableWord 32 0x10000000 = none := by decide

/-- R95's example, and a register name as an address. -/
theorem test_assemble :
    (assemble "SET_DEAD_TIME" [.num 850]).map encode = some (.command 0x0B000352) ∧
    (assemble "READ_SHADOW" [.reg .status]).map encode = some (.command 0x0F070000) ∧
    assemble "SET_TORQUE" [.num 256] = none := by decide

/-! ## Fields and tables -/

/-- V90 to V95. -/
theorem test_merge :
    merge 0x0FFF ctrlMode 0 = 0x0F87 ∧ merge 0x0000 ctrlMode 8 = 0x0040 ∧ merge 0x0FFF ctrlGain 1 = 0x0DFF ∧
    merge 0x0FFF ctrlDtime 0 = 0x03FF ∧ merge 0x01FF torqueVal 0x12 = 0x0112 ∧ merge 0x0130 offToff 0x00 = 0x0100 := by
  decide

/-- V110, V112, V113. -/
theorem test_field :
    decMode ((fieldOf 0x0C10 ctrlMode).setWidth 4) = some 4 ∧ decGain ((fieldOf 0x0C10 ctrlGain).setWidth 2) = 5 ∧
    decDeadTime ((fieldOf 0x0C10 ctrlDtime).setWidth 2) = 850 := by decide

/-- V114, V115. -/
theorem test_decode_codes :
    decGain ((fieldOf (merge 0x0C10 ctrlGain ((encGain 7).setWidth 16)) ctrlGain).setWidth 2) = 20 ∧
    decMode ((fieldOf 0x0048 ctrlMode).setWidth 4) = none := by decide

/-- V40 to V44, V54 to V56, V64 to V66, and 449 ns of R156. -/
theorem test_fallbacks :
    [0, 3, 5, 512, 0xFFFF].map encMode = [2, 2, 2, 2, 2] ∧ [0, 7, 0xFFFF].map encGain = [2, 2, 2] ∧
    [0, 500, 0xFFFF, 449].map encDeadTime = [3, 3, 3, 3] := by decide

/-- R55: bit 15 goes first, the high byte first. -/
theorem test_wire : (wireBits 0x8001).head? = some true ∧ frameBytes 0x1140 = (0x11, 0x40) := by decide

/-! ## One step of each instruction -/

/-- V20. -/
theorem test_init :
    sees (issue 0x00000005 State.reset) (fun t =>
      t.trace == [.reset, .bind 5, .csDeassert] && t.cs == .deasserted && t.initialized && t.line == some 5 &&
      t.resp == none && t.pc == 1) = true := by decide

/-- V29. -/
theorem test_init_twice :
    sees (issue 0x00000001 initialisedBlock) (fun t =>
      t == { initialisedBlock with fault := some { reason := .alreadyInitialized, word := 0x00000001, atPc := 1 } }) =
        true := by decide

/-- V22: a read of a reserved address is sent like any other. -/
theorem test_read :
    sees (issue 0x01050000 initialisedBlock) (fun t =>
      sends initialisedBlock 0xD000 t && t.resp.isSome && t.pc == 2 && t.fault == none) = true := by decide

/-- S8. -/
theorem test_read_status :
    sees (issue 0x01070000 initialisedBlock) (fun t =>
      sends initialisedBlock 0xF000 t && t.shadow == Shadow.reset) = true := by decide

/-- V26: the largest value; the shadow stays. -/
theorem test_write :
    sees (issue 0x02000FFF initialisedBlock) (fun t =>
      sends initialisedBlock 0x0FFF t && t.shadow.ctrl == 0x0C10 && t.resp == none) = true := by decide

/-- V28. -/
theorem test_write_too_wide :
    sees (issue 0x02001000 initialisedBlock) (fun t =>
      t == { initialisedBlock with fault := some { reason := .writeValueTooWide, word := 0x02001000, atPc := 1 } }) =
        true := by decide

/-- V70. -/
theorem test_enable :
    sees (issue 0x03000000 initialisedBlock) (fun t =>
      t.shadow.ctrl == 0x0C11 && sends initialisedBlock 0x0C11 t && t.pc == 2) = true := by decide

/-- V120. -/
theorem test_enable_before_init :
    sees (issue 0x03000000 State.reset) (fun t =>
      t.fault == some { reason := .notInitialized, word := 0x03000000, atPc := 0 } && t.trace == [.reset] &&
      t.cs == .unbound && t.shadow == Shadow.reset) = true := by decide

/-- V72: a write is sent although nothing changed. -/
theorem test_disable :
    sees (issue 0x04000000 initialisedBlock) (fun t =>
      t.shadow.ctrl == 0x0C10 && sends initialisedBlock 0x0C10 t) = true := by decide

/-- V81's second command. -/
theorem test_disable_clears_all :
    sees (issue 0x04000000 { withCtrl 0x0C14 with disableClearsAll := true }) (fun t =>
      t.shadow.ctrl == 0x0000 && sends initialisedBlock 0x0000 t) = true := by decide

/-- V74's second command. -/
theorem test_flipDir :
    sees (issue 0x05000000 (withCtrl 0x0C12)) (fun t =>
      t.shadow.ctrl == 0x0C10 && sends initialisedBlock 0x0C10 t) = true := by decide

/-- V75. -/
theorem test_step :
    sees (issue 0x06000000 initialisedBlock) (fun t =>
      t.shadow.ctrl == 0x0C14 && sends initialisedBlock 0x0C14 t) = true := by decide

/-- V76's second command: bit 2 is sticky. -/
theorem test_step_sticky :
    sees (issue 0x03000000 (withCtrl 0x0C14)) (fun t =>
      t.shadow.ctrl == 0x0C15 && sends initialisedBlock 0x0C15 t) = true := by decide

/-- V38. -/
theorem test_setStepMode :
    sees (issue 0x07000100 initialisedBlock) (fun t =>
      t.shadow.ctrl == 0x0C40 && sends initialisedBlock 0x0C40 t) = true := by decide

/-- V39's second command: the fallback overwrites the code before it. -/
theorem test_setStepMode_fallback :
    sees (issue 0x07000007 (withCtrl 0x0C40)) (fun t =>
      t.shadow.ctrl == 0x0C10 && sends initialisedBlock 0x0C10 t && t.fault == none) = true := by decide

/-- V78. -/
theorem test_setExtStall :
    sees (issue 0x08000000 initialisedBlock) (fun t =>
      t.shadow.ctrl == 0x0C90 && sends initialisedBlock 0x0C90 t) = true := by decide

/-- V79's second command. -/
theorem test_setIntStall :
    sees (issue 0x09000000 (withCtrl 0x0C90)) (fun t =>
      t.shadow.ctrl == 0x0C10 && sends initialisedBlock 0x0C10 t) = true := by decide

/-- V53. -/
theorem test_setGain :
    sees (issue 0x0A000028 initialisedBlock) (fun t =>
      t.shadow.ctrl == 0x0F10 && sends initialisedBlock 0x0F10 t) = true := by decide

/-- V55: the fallback is not the reset gain. -/
theorem test_setGain_fallback :
    sees (issue 0x0A000007 initialisedBlock) (fun t =>
      t.shadow.ctrl == 0x0E10 && sends initialisedBlock 0x0E10 t && t.fault == none) = true := by decide

/-- V60. -/
theorem test_setDeadTime :
    sees (issue 0x0B000190 initialisedBlock) (fun t =>
      t.shadow.ctrl == 0x0010 && sends initialisedBlock 0x0010 t) = true := by decide

/-- V65: no rounding. -/
theorem test_setDeadTime_fallback :
    sees (issue 0x0B0001F4 initialisedBlock) (fun t =>
      t.shadow.ctrl == 0x0C10 && sends initialisedBlock 0x0C10 t && t.fault == none) = true := by decide

/-- V100: bit 8 is kept. -/
theorem test_setTorque :
    sees (issue 0x0C000000 initialisedBlock) (fun t =>
      t.shadow.torque == 0x0100 && sends initialisedBlock 0x1100 t) = true := by decide

/-- V132: the device holds what the shadow holds. -/
theorem test_setTorque_device :
    sees (issue 0x0C000040 initialisedBlock) (fun t =>
      t.shadow.torque == 0x0140 && Memory.read t.dev 1 == some 0x0140) = true := by decide

/-- V108's second command: the PWM bit is kept. -/
theorem test_setOffTime :
    sees (issue 0x0D000055 (withOff 0x0130)) (fun t =>
      t.shadow.off == 0x0155 && sends initialisedBlock 0x2155 t) = true := by decide

/-- V107: the argument 0 toggles too. -/
theorem test_setPwmMode :
    sees (issue 0x0E000000 initialisedBlock) (fun t =>
      t.shadow.off == 0x0130 && sends initialisedBlock 0x2130 t) = true := by decide

/-- V106's second command. -/
theorem test_setPwmMode_back :
    sees (issue 0x0E000001 (withOff 0x0130)) (fun t =>
      t.shadow.off == 0x0030 && sends initialisedBlock 0x2030 t) = true := by decide

/-- S1. -/
theorem test_readShadow :
    sees (issue 0x0F010000 State.reset) (fun t => t.resp == some 0x01FF && t.trace == [.reset] && t.pc == 1) = true := by
  decide

/-- S8: the shadow of STATUS. -/
theorem test_readShadow_status :
    sees (issue 0x0F070000 initialisedBlock) (fun t => t.resp == some 0x0000 && t.trace == initialisedBlock.trace) =
      true := by decide

/-- R92, R113: the read frame of BLANK in one bracket. -/
theorem test_readFrame :
    sees (exec (.readFrame 3) initialisedBlock) (fun t => sends initialisedBlock 0xB000 t && t.pc == 1) = true := by decide

/-- R62, V133: a write frame to 0x5 makes the register unknown. -/
theorem test_writeFrame :
    sees (exec (.writeFrame 5 0x001) { initialisedBlock with dev := [(5, 0x0123)] }) (fun t =>
      sends initialisedBlock 0x5001 t && Memory.read t.dev 5 == none) = true := by decide

/-! ## Faults and reset -/

/-- V122, V123. -/
theorem test_illegal :
    sees (issue 0x02081000 State.reset) (fun t =>
      t.fault == some { reason := .illegalCommand, word := 0x02081000, atPc := 0 }) = true ∧
    sees (issue 0x02081000 initialisedBlock) (fun t =>
      t.fault == some { reason := .illegalCommand, word := 0x02081000, atPc := 1 }) = true := by decide

/-- V121: the INIT check comes before the width check. -/
theorem test_priority :
    sees (issue 0x02001000 State.reset) (fun t =>
      t.fault == some { reason := .notInitialized, word := 0x02001000, atPc := 0 }) = true := by decide

/-- V124. -/
theorem test_halted : sees (issue 0x03000000 halted) (fun t => t == halted) = true := by decide

/-- V125. -/
theorem test_reset_clears_fault :
    sees (step { halted with inputs := [.blockReset] }) (fun t =>
      t == { State.reset with trace := [.reset, .bind 1, .csDeassert, .reset] }) = true := by decide

/-- V130: reset between the exchange and the deassert of SET_TORQUE 0x40. -/
theorem test_cut_after_exchange :
    sees (step (facing [.issueCut (.command 0x0C000040) 2])) (fun t =>
      t.trace.map shape == [.reset, .bind 1, .csDeassert, .csAssert, .xfer 0x1140 0, .reset] &&
      t.shadow == Shadow.reset && Memory.read t.dev 1 == none && Memory.read t.dev 0 == some 0x0C10) = true := by decide

/-- V131: reset between the assert and the exchange. -/
theorem test_cut_before_exchange :
    sees (step (facing [.issueCut (.command 0x0C000040) 1])) (fun t =>
      t.trace == [.reset, .bind 1, .csDeassert, .csAssert, .reset] && t.dev == []) = true := by decide

/-- R93: the one stop of the model, and only while no fault is recorded. -/
theorem test_no_frame_stops :
    step (facing [.issue (.frame 0x8001)]) = .fault .frameNeverSent := by rfl

/-! ## Witnesses: the hypotheses of each statement of Obligations.lean, met together -/

/-- The initialised block with a device register that holds the word the next exchange returns. -/
def echoing : State := { initialisedBlock with dev := [(1, Config.busDraw 0)] }

/-- A word of the command, and one with its opcode that is not, meet the two hypotheses of `EncodedAs`. -/
def EncodedMeets (opc : U8) (value mask : U32) (excluded : List U32) (good bad : U32) : Prop :=
  (good &&& mask = value ∧ good ∉ excluded) ∧
  (bad.extractLsb' 24 8 = opc ∧ (bad &&& mask ≠ value ∨ bad ∈ excluded) ∧ State.reset.fault = none)

/-- The hypotheses of `NeedsInit` and of `SetsTo`. -/
def RunsAndWaits : Prop :=
  (State.reset.fault = none ∧ State.reset.initialized = false) ∧ (Ready initialisedBlock ∧ ShadowNarrow initialisedBlock)

theorem witness_RunsAndWaits : RunsAndWaits := by unfold RunsAndWaits; decide

theorem witness_ResetLeavesTheStatedValues :
    (facing [.blockReset]).inputs = .blockReset :: [] ∧ (facing [.blockReset]).phase = .idle := by decide

theorem witness_PowerCycleRestoresBlockAndDevice : (facing [.powerCycle]).inputs = .powerCycle :: [] := by decide

theorem witness_StepRunsTheDecodedInstruction :
    ((facing [.issue (.command 0x03000000)]).inputs = .issue (.command 0x03000000) :: [] ∧
      decode (.command 0x03000000) = .instr .enable) ∧
    decodeTableWord 32 0x0207FFFF = some (.write 7 0xFFFF) ∧
    decodeTableWord 16 0x7FFF = some (.writeFrame 7 0xFFF) := by decide

theorem witness_BlockWaitsForTheHost : State.reset.inputs = [] := by decide

theorem witness_DecodeOfEncode :
    (Instr.readShadow 4).wellFormed = true ∧ (Instr.readShadow 7).wellFormed = true ∧
      (Instr.write 7 0xFFFF).wellFormed = true := by decide

theorem witness_EncodeOfDecode :
    decode (.command 0x0F040000) = .instr (.readShadow 4) ∧ decode (.frame 0x7FFF) = .instr (.writeFrame 7 0xFFF) := by
  decide

/-- One word for each clause of R84, at the edge of its range, and a word that is legal. -/
theorem witness_IllegalWordsAreExactlyTheListed :
    (IllegalWord 0x00080000 ∧ IllegalWord 0x10000000 ∧ IllegalWord 0x00010000 ∧ IllegalWord 0x01000001 ∧
      IllegalWord 0x0C000100 ∧ IllegalWord 0x0F050000 ∧ IllegalWord 0x0F060000 ∧ State.reset.fault = none) ∧
    (¬ IllegalWord 0x0F040000 ∧ ¬ IllegalWord 0x0F070000 ∧ ¬ IllegalWord 0x0D0000FF) := by
  unfold IllegalWord
  refine ⟨⟨?_, ?_, ?_, ?_, ?_, ?_, ?_, rfl⟩, ?_, ?_, ?_⟩ <;> (intros; decide)

/-- The largest value sent and the smallest that is not. -/
theorem witness_WriteFrameCarriesAddressAndValue :
    Narrow 0x0FFF ∧ ¬ Narrow 0x1000 ∧ ∃ t, exec (.write 0 0x1000) initialisedBlock = .next t :=
  ⟨by decide, by decide, _, rfl⟩

theorem witness_EveryFrameSentIsLegal :
    ((0x8001 : U16).getLsbD 15 = true ∧ (0x8001 : U16).extractLsb' 0 12 ≠ (0 : U12) ∧ Narrow 0x0FFF) ∧
    (∃ t, exec (.read 7) initialisedBlock = .next t ∧
      t.trace = initialisedBlock.trace ++ [.csAssert, .xfer 0xF000 (Config.busDraw 0), .csDeassert]) :=
  ⟨by decide, _, rfl, rfl⟩

/-- One run for each case: nothing sent, INIT, and a transaction. -/
theorem witness_EveryTransactionIsOneBracket :
    (∃ t, exec (.readShadow 0) State.reset = .next t) ∧ (∃ t, exec (.init 5) State.reset = .next t) ∧
    (∃ t, exec .enable initialisedBlock = .next t) :=
  ⟨⟨_, rfl⟩, ⟨_, rfl⟩, ⟨_, rfl⟩⟩

theorem witness_InitBindsTheLine :
    EncodedMeets 0x00 0x00000000 0xFFFF0000 [] 0x0000FFFF 0x00010000 ∧
    (State.reset.fault = none ∧ State.reset.initialized = false) ∧
    (initialisedBlock.fault = none ∧ initialisedBlock.initialized = true) := by
  unfold EncodedMeets; decide

theorem witness_ReadReturnsTheWordReceived :
    EncodedMeets 0x01 0x01000000 0xFFF8FFFF [] 0x01070000 0x01000001 ∧ RunsAndWaits ∧
    (Ready echoing ∧ Memory.read echoing.dev (1 : U3).toNat = some (Config.busDraw 0) ∧
      (Config.busDraw echoing.draws).extractLsb' 0 12 = (Config.busDraw 0).extractLsb' 0 12) :=
  ⟨by unfold EncodedMeets; decide, witness_RunsAndWaits, by decide, rfl, rfl⟩

theorem witness_WriteSendsOneFrameAndNoShadowChanges :
    EncodedMeets 0x02 0x02000000 0xFFF80000 [] 0x0207FFFF 0x02080000 ∧ RunsAndWaits ∧ Narrow 0x0FFF ∧ ¬ Narrow 0x1000 :=
  ⟨by unfold EncodedMeets; decide, witness_RunsAndWaits, by decide, by decide⟩

theorem witness_BareFrameIsOneTransaction : RunsAndWaits := witness_RunsAndWaits

theorem witness_EnableSetsBitZero :
    EncodedMeets 0x03 0x03000000 0xFFFFFFFF [] 0x03000000 0x03010000 ∧ RunsAndWaits :=
  ⟨by unfold EncodedMeets; decide, witness_RunsAndWaits⟩

/-- Both settings of the parameter. -/
theorem witness_DisableClearsBitZeroOrAll :
    EncodedMeets 0x04 0x04000000 0xFFFFFFFF [] 0x04000000 0x04000001 ∧ RunsAndWaits ∧
    initialisedBlock.disableClearsAll = false ∧ Ready clearsAll ∧ clearsAll.disableClearsAll = true :=
  ⟨by unfold EncodedMeets; decide, witness_RunsAndWaits, by decide, by decide, by decide⟩

theorem witness_FlipDirTogglesBitOne :
    EncodedMeets 0x05 0x05000000 0xFFFFFFFF [] 0x05000000 0x05000001 ∧ RunsAndWaits :=
  ⟨by unfold EncodedMeets; decide, witness_RunsAndWaits⟩

theorem witness_StepSetsBitTwoAndKeepsIt :
    (EncodedMeets 0x06 0x06000000 0xFFFFFFFF [] 0x06000000 0x06000001 ∧ RunsAndWaits) ∧
    (withCtrl 0x0C14).shadow.ctrl.getLsbD 2 = true ∧ targetOf .disable = some .ctrl ∧ Ready (withCtrl 0x0C14) ∧
    ShadowNarrow (withCtrl 0x0C14) ∧ ¬ (Instr.disable = .disable ∧ (withCtrl 0x0C14).disableClearsAll = true) ∧
    ∃ t, exec .disable (withCtrl 0x0C14) = .next t :=
  ⟨⟨by unfold EncodedMeets; decide, witness_RunsAndWaits⟩, by decide, by decide, by decide, by decide, by decide, _, rfl⟩

theorem witness_SetStepModeMergesTheCode :
    EncodedMeets 0x07 0x07000000 0xFFFF0000 [] 0x0700FFFF 0x07010000 ∧ RunsAndWaits ∧
    (512 : U16) ∉ ([1, 2, 4, 8, 16, 32, 64, 128, 256] : List U16) ∧
    ∃ t u, exec (.setStepMode 512) initialisedBlock = .next t ∧ exec (.setStepMode 4) initialisedBlock = .next u :=
  ⟨by unfold EncodedMeets; decide, witness_RunsAndWaits, by decide, _, _, rfl, rfl⟩

theorem witness_SetExtStallSetsBitSeven :
    EncodedMeets 0x08 0x08000000 0xFFFFFFFF [] 0x08000000 0x08010000 ∧ RunsAndWaits :=
  ⟨by unfold EncodedMeets; decide, witness_RunsAndWaits⟩

theorem witness_SetIntStallClearsBitSeven :
    EncodedMeets 0x09 0x09000000 0xFFFFFFFF [] 0x09000000 0x09000001 ∧ RunsAndWaits :=
  ⟨by unfold EncodedMeets; decide, witness_RunsAndWaits⟩

theorem witness_SetGainMergesTheCode :
    EncodedMeets 0x0A 0x0A000000 0xFFFF0000 [] 0x0A00FFFF 0x0A010000 ∧ RunsAndWaits ∧
    (15 : U16) ∉ ([5, 10, 20, 40] : List U16) ∧
    ∃ t u, exec (.setGain 15) initialisedBlock = .next t ∧ exec (.setGain 20) initialisedBlock = .next u :=
  ⟨by unfold EncodedMeets; decide, witness_RunsAndWaits, by decide, _, _, rfl, rfl⟩

theorem witness_SetDeadTimeMergesTheCode :
    EncodedMeets 0x0B 0x0B000000 0xFFFF0000 [] 0x0B00FFFF 0x0B010000 ∧ RunsAndWaits ∧
    (449 : U16) ∉ ([400, 450, 650, 850] : List U16) ∧
    ∃ t u, exec (.setDeadTime 449) initialisedBlock = .next t ∧ exec (.setDeadTime 850) initialisedBlock = .next u :=
  ⟨by unfold EncodedMeets; decide, witness_RunsAndWaits, by decide, _, _, rfl, rfl⟩

theorem witness_SetTorqueWritesTheLowByte :
    EncodedMeets 0x0C 0x0C000000 0xFFFFFF00 [] 0x0C0000FF 0x0C000100 ∧ RunsAndWaits :=
  ⟨by unfold EncodedMeets; decide, witness_RunsAndWaits⟩

theorem witness_SetOffTimeWritesTheLowByte :
    EncodedMeets 0x0D 0x0D000000 0xFFFFFF00 [] 0x0D0000FF 0x0D000100 ∧ RunsAndWaits :=
  ⟨by unfold EncodedMeets; decide, witness_RunsAndWaits⟩

theorem witness_SetPwmModeTogglesBitEight :
    EncodedMeets 0x0E 0x0E000000 0xFFFF0000 [] 0x0E00FFFF 0x0E010000 ∧ RunsAndWaits :=
  ⟨by unfold EncodedMeets; decide, witness_RunsAndWaits⟩

/-- The last word before the hole and the two words in it. -/
theorem witness_ReadShadowReturnsTheShadow :
    EncodedMeets 0x0F 0x0F000000 0xFFF8FFFF [0x0F050000, 0x0F060000] 0x0F040000 0x0F050000 ∧
    EncodedMeets 0x0F 0x0F000000 0xFFF8FFFF [0x0F050000, 0x0F060000] 0x0F070000 0x0F060000 ∧
    EncodedMeets 0x0F 0x0F000000 0xFFF8FFFF [0x0F050000, 0x0F060000] 0x0F000000 0x0F000001 ∧
    ((4 : U3) ≠ 5 ∧ (4 : U3) ≠ 6) ∧ State.reset.fault = none ∧ ShadowInv State.reset := by
  unfold EncodedMeets; decide

/-- The largest code of the widest field of CTRL. -/
theorem witness_FieldMasksAndCodesFit :
    ctrlMode ∈ allFields ∧ (0xF : U16).toNat < 2 ^ ctrlMode.width ∧
      offPwm ∈ [ctrlEn, ctrlDir, ctrlStep, ctrlExstall, offPwm] := by decide

theorem witness_SettersLeaveOtherFieldsAlone :
    (offPwm ∈ allFields ∧ (1 : U16).toNat < 2 ^ offPwm.width) ∧
    (fieldWritten .disable = some ctrlEn ∧ ¬ (Instr.disable = .disable ∧ initialisedBlock.disableClearsAll = true) ∧
      ∃ t, exec .disable initialisedBlock = .next t) :=
  ⟨by decide, by decide, by decide, _, rfl⟩

theorem witness_EncodeTablesAndFallbacks :
    (0xFFFF : U16) ∉ ([1, 2, 4, 8, 16, 32, 64, 128, 256] : List U16) ∧ (0 : U16) ∉ ([5, 10, 20, 40] : List U16) ∧
      (851 : U16) ∉ ([400, 450, 650, 850] : List U16) := by decide

/-- The first code without a meaning, and a field. -/
theorem witness_DecodeTables : 9 ≤ (9 : U4).toNat ∧ ctrlDtime ∈ allFields := by decide

theorem witness_DecodeUndoesEncode : torqueVal ∈ allFields ∧ (0xFF : U16).toNat < 2 ^ torqueVal.width := by decide

theorem witness_SettersFollowTheTable :
    (Ready initialisedBlock ∧ ShadowNarrow initialisedBlock ∧
      setterTable initialisedBlock.shadow initialisedBlock.disableClearsAll .enable = some (.ctrl, 0x0C11)) ∧
    (targetOf .enable = some .ctrl ∧ targetOf (.setTorque 0) = some .torque ∧ ShadowReg.ctrl ≠ .torque ∧
      ∃ t u t' u', exec .enable initialisedBlock = .next t ∧ exec (.setTorque 0) t = .next u ∧
        exec (.setTorque 0) initialisedBlock = .next t' ∧ exec .enable t' = .next u') :=
  ⟨⟨by decide, by decide, by decide⟩, by decide, by decide, by decide, _, _, _, _, rfl, rfl, rfl, rfl⟩

theorem witness_SettersNeverFailOnTheirArgument :
    targetOf (.setGain 7) = some .ctrl ∧
    (ShadowNarrow initialisedBlock ∧ initialisedBlock.fault = none ∧ initialisedBlock.initialized = true) ∧
    (ShadowNarrow State.reset ∧ State.reset.fault = none ∧ State.reset.initialized = false) ∧
    (Ready initialisedBlock ∧ (0 : U16) ∉ ([1, 2, 4, 8, 16, 32, 64, 128, 256] : List U16) ∧
      (7 : U16) ∉ ([5, 10, 20, 40] : List U16) ∧ (500 : U16) ∉ ([400, 450, 650, 850] : List U16)) := by decide

theorem witness_SetterMakesTheDeviceMatch :
    targetOf (.setOffTime 0) = some .off ∧ Ready initialisedBlock ∧ ShadowNarrow initialisedBlock := by decide

/-- A setter, a power cycle, waiting, and a reset of the block with the device at its defaults. -/
theorem witness_MirrorIsKeptWithoutRawWrites :
    (MirrorButStep (facing [.issue (.command 0x06000000)]) ∧ partsRegisters (.issue (.command 0x06000000)) = false ∧
      mayDesynchronise (.issue (.command 0x06000000)) = true ∧
      ∃ t, step (facing [.issue (.command 0x06000000)]) = .next t) ∧
    (MirrorButStep steppedBlock ∧ partsRegisters .stepSelfClear = false ∧ mayDesynchronise .stepSelfClear = true ∧
      ¬ MirrorInv steppedBlock ∧ ∃ t, step steppedBlock = .next t ∧ MirrorButStep t ∧ ¬ Mirrored t) ∧
    (MirrorInv (facing [.issue (.command 0x05000000)]) ∧ mayDesynchronise (.issue (.command 0x05000000)) = false ∧
      ∃ t, step (facing [.issue (.command 0x05000000)]) = .next t) ∧
    (MirrorInv (facing [.powerCycle]) ∧ mayDesynchronise .powerCycle = false ∧
      ∃ t, step (facing [.powerCycle]) = .next t) ∧
    (MirrorInv (facing []) ∧ ∃ t, step (facing []) = .next t) ∧
    ((facing [.blockReset]).inputs = .blockReset :: [] ∧ (facing [.blockReset]).phase = .idle ∧
      DeviceAtDefaults (facing [.blockReset]) ∧ (facing [.blockReset]).pendingLatch = none) :=
  ⟨⟨by decide, by decide, by decide, _, rfl⟩,
    ⟨by decide, by decide, by decide, by decide,
      stepSelfClear { steppedBlock with inputs := [] }, rfl, by decide, by decide⟩,
    ⟨by decide, by decide, _, rfl⟩, ⟨by decide, by decide, _, rfl⟩, ⟨by decide, _, rfl⟩, by decide⟩

/-- The clear after a STEP, on a block that the STEP still faces, and where the device's register is unknown. -/
theorem witness_DeviceClearsTheStepBit :
    (steppedBlock.inputs = .stepSelfClear :: [] ∧ { steppedBlock with dev := [] }.inputs = .stepSelfClear :: []) ∧
    (Ready (facing [.issue (.command 0x06000000), .stepSelfClear]) ∧
      ShadowNarrow (facing [.issue (.command 0x06000000), .stepSelfClear]) ∧
      (facing [.issue (.command 0x06000000), .stepSelfClear]).inputs =
        .issue (.command 0x06000000) :: .stepSelfClear :: []) := by decide

/-- R64, R242: after a STEP (V75: CTRL 0x0C14) the device clears its bit; the shadow keeps it. -/
theorem test_stepSelfClear :
    ∃ t, step steppedBlock = .next t ∧ Memory.read t.dev 0 = some 0x0C10 ∧ t.shadow.ctrl = 0x0C14 :=
  ⟨stepSelfClear { steppedBlock with inputs := [] }, rfl, by decide, rfl⟩

/-- A setter of each of the three registers. -/
theorem witness_StaleShadowAfterRawWrite :
    (Ready initialisedBlock ∧ ShadowNarrow initialisedBlock ∧ Narrow 0x0FFF) ∧
    (setterTable initialisedBlock.shadow initialisedBlock.disableClearsAll .disable = some (.ctrl, 0x0C10) ∧
      setterTable initialisedBlock.shadow initialisedBlock.disableClearsAll (.setTorque 0) = some (.torque, 0x0100) ∧
      setterTable initialisedBlock.shadow initialisedBlock.disableClearsAll (.setPwmMode 0) = some (.off, 0x0130)) ∧
    (fieldWritten .disable = some ctrlEn ∧ ¬ (Instr.disable = .disable ∧ initialisedBlock.disableClearsAll = true)) ∧
    ((2 : U3).toNat ≤ 2 ∧ targetOf (.setPwmMode 0) = some .off ∧ ShadowReg.off.addr = 2) := by decide

/-- Each reason on a word that raises it, and a word that raises none. -/
theorem witness_FirstFailingCheckIsReported :
    (State.reset.fault = none ∧ wordFault 0x02081000 State.reset = some .illegalCommand ∧
      wordFault 0x02001000 State.reset = some .notInitialized) ∧
    (initialisedBlock.fault = none ∧ wordFault 0x00000001 initialisedBlock = some .alreadyInitialized ∧
      wordFault 0x02001000 initialisedBlock = some .writeValueTooWide) ∧
    (ShadowNarrow initialisedBlock ∧ wordFault 0x02000FFF initialisedBlock = none) := by decide

/-- A fault before INIT and one after it, and a halted block. -/
theorem witness_FaultsArePreciseAndHalt :
    (State.reset.fault = none ∧ BusInv State.reset ∧ ∃ t, exec .enable State.reset = .next t ∧ t.fault ≠ none) ∧
    (initialisedBlock.fault = none ∧ BusInv initialisedBlock ∧
      ∃ t, exec (.write 0 0x1000) initialisedBlock = .next t ∧ t.fault ≠ none) ∧
    halted.fault ≠ none :=
  ⟨⟨rfl, by decide, _, rfl, by decide⟩, ⟨rfl, by decide, _, rfl, by decide⟩, by decide⟩

theorem witness_OnlyResetClearsAFault :
    (halted.fault ≠ none ∧ resetsBlock (.issue (.command 0x00000001)) = false ∧ resetsBlock .deviceReset = false ∧
      (∃ t, step { halted with inputs := .issue (.command 0x00000001) :: [] } = .next t) ∧
      (∃ t, step { halted with inputs := .deviceReset :: [] } = .next t)) ∧
    ({ halted with inputs := [.blockReset] } : State).inputs = .blockReset :: [] :=
  ⟨⟨by decide, rfl, rfl, ⟨_, rfl⟩, ⟨_, rfl⟩⟩, rfl⟩

/-- A command that completes without a result, one that faults, a READ and a READ_SHADOW. -/
theorem witness_PcAndResponseFollowCompletion :
    (isCommand .step = true ∧ initialisedBlock.fault = none ∧ (∃ t, exec .step initialisedBlock = .next t ∧ t.fault = none) ∧
      (∀ a, Instr.step ≠ .read a) ∧ (∀ a, Instr.step ≠ .readShadow a)) ∧
    (State.reset.fault = none ∧ ∃ t, exec .step State.reset = .next t ∧ t.fault ≠ none) ∧
    (∃ t, exec (.read 0) initialisedBlock = .next t ∧ t.fault = none) ∧
    (∃ t, exec (.readShadow ShadowReg.status.addr) State.reset = .next t) :=
  ⟨⟨rfl, rfl, ⟨_, rfl, rfl⟩, by simp, by simp⟩, ⟨rfl, _, rfl, by decide⟩, ⟨_, rfl, rfl⟩, ⟨_, rfl⟩⟩

/-- A setter and a reset, each of which changes a shadow. -/
theorem witness_OnlySettersAndResetChangeShadows :
    (∃ t, step (facing [.issue (.command 0x03000000)]) = .next t ∧
      t.shadow ≠ (facing [.issue (.command 0x03000000)]).shadow) ∧
    (∃ t, step { withCtrl 0x0C11 with inputs := [.blockReset] } = .next t ∧ t.shadow ≠ (withCtrl 0x0C11).shadow) :=
  ⟨⟨_, rfl, by decide⟩, ⟨_, rfl, by decide⟩⟩

theorem witness_FrameOfInitAndReadShadow :
    (State.reset.pendingLatch = none ∧ ∃ t, exec (.init 0) State.reset = .next t) ∧
    (∃ t, exec (.readShadow 7) State.reset = .next t) ∧ (∃ t, exec (.readShadow 5) State.reset = .next t) :=
  ⟨⟨rfl, _, rfl⟩, ⟨_, rfl⟩, ⟨_, rfl⟩⟩

/-- Each of the four forms. -/
theorem witness_FrameOfTransport :
    (∃ t, exec (.read 5) initialisedBlock = .next t) ∧ (∃ t, exec (.readFrame 5) initialisedBlock = .next t) ∧
    (∃ t, exec (.write 5 0x0FFF) initialisedBlock = .next t) ∧ (∃ t, exec (.writeFrame 5 0xFFF) initialisedBlock = .next t) ∧
    initialisedBlock.pendingLatch = none ∧ isCommand (.readFrame 5) = false :=
  ⟨⟨_, rfl⟩, ⟨_, rfl⟩, ⟨_, rfl⟩, ⟨_, rfl⟩, rfl, rfl⟩

theorem witness_FrameOfSetters :
    targetOf (.setPwmMode 0) = some .off ∧ ShadowReg.ctrl ≠ .off ∧ ∃ t, exec (.setPwmMode 0) initialisedBlock = .next t :=
  ⟨rfl, by decide, _, rfl⟩

/-- The last address that stores and the first that does not. -/
theorem witness_WriteFramesLatchAtDeassert :
    (∃ t, exec (.write 4 0x0110) initialisedBlock = .next t ∧
      t.trace = initialisedBlock.trace ++ bracket 0x4110 (Config.busDraw 0)) ∧
    (∃ t, exec (.write 5 0x0001) initialisedBlock = .next t ∧
      t.trace = initialisedBlock.trace ++ bracket 0x5001 (Config.busDraw 0)) ∧
    (0x4110 : U16).getLsbD 15 = false ∧ (0x5001 : U16).getLsbD 15 = false :=
  ⟨⟨_, rfl, rfl⟩, ⟨_, rfl, rfl⟩, by decide, by decide⟩

theorem witness_ReadReturnsTheDeviceRegister :
    Ready echoing ∧ DeviceReadEcho echoing 1 ∧ Memory.read echoing.dev (1 : U3).toNat = some (Config.busDraw 0) :=
  ⟨by decide, fun v h => by cases h; rfl, rfl⟩

/-- A write frame and a read frame, each to be cut. -/
theorem witness_InterruptedFrameMakesRegistersUnknown :
    initialisedBlock.pendingLatch = none ∧
    (∃ t, step (present (.command 0x0C000040) initialisedBlock) = .next t ∧
      t.trace = initialisedBlock.trace ++ bracket 0x1140 (Config.busDraw 0)) ∧
    (∃ t, step (present (.command 0x01070000) initialisedBlock) = .next t ∧
      t.trace = initialisedBlock.trace ++ bracket 0xF000 (Config.busDraw 0)) ∧
    (0x1140 : U16).getLsbD 15 = false ∧ (0xF000 : U16).getLsbD 15 = true :=
  ⟨rfl, ⟨_, rfl, rfl⟩, ⟨_, rfl, rfl⟩, by decide, by decide⟩

/-- Cut before the first event, inside the bracket, and after the last. -/
theorem witness_CutCommandLeavesTheResetState :
    (∃ t, step (facing [.issueCut (.command 0x0C000040) 0]) = .next t) ∧
    (∃ t, step (facing [.issueCut (.command 0x0C000040) 2]) = .next t) ∧
    (∃ t, step (facing [.issueCut (.command 0x0C000040) 3]) = .next t) :=
  ⟨⟨_, rfl⟩, ⟨_, rfl⟩, ⟨_, rfl⟩⟩

/-- Two states that differ in the device and in the history of the bus. -/
theorem witness_BusReachesOnlyTheResponse :
    controlOf initialisedBlock = controlOf { echoing with draws := 7, trace := [] } ∧
    initialisedBlock.disableClearsAll = echoing.disableClearsAll ∧ initialisedBlock.resp = echoing.resp ∧
    (∀ a, Instr.enable ≠ .read a) :=
  ⟨by decide, by decide, by decide, by simp⟩

theorem witness_FramesGoMostSignificantBitFirst : 15 < 16 := by decide

/-- The last operand that assembles and the first that does not, for each bound; a line of the wrong length; and a
mnemonic that is none. -/
theorem witness_AssembledLinesAreCommandWords :
    (0xFFFF ≤ 0xFFFF ∧ 0xFFFF < 0x10000 ∧ 0xFF ≤ 0xFF ∧ 0xFF < 0x100) ∧
    (addressNumber (.num 7) < 8 ∧ addressNumber (.reg .status) < 8 ∧ 8 ≤ addressNumber (.num 8)) ∧
    (addressNumber (.num 4) < 8 ∧ addressNumber (.num 4) ≠ 5 ∧ addressNumber (.num 4) ≠ 6) ∧
    (¬ (addressNumber (.num 5) < 8 ∧ addressNumber (.num 5) ≠ 5 ∧ addressNumber (.num 5) ≠ 6) ∧
      ¬ (addressNumber (.num 6) < 8 ∧ addressNumber (.num 6) ≠ 5 ∧ addressNumber (.num 6) ≠ 6)) ∧
    (("ENABLE", [AsmOperand.num 0].length) ∉ operandCounts ∧ ("READ_FRAME", [AsmOperand.num 0].length) ∉ operandCounts) ∧
    assemble "WRITE" [.reg .status, .num 0xFFFF] = some (.write 7 0xFFFF) := by decide

theorem witness_StepKeepsShadowInv :
    ShadowInv (facing [.issue (.command 0x0C0000FF)]) ∧
    ∃ t, step (facing [.issue (.command 0x0C0000FF)]) = .next t :=
  ⟨by decide, _, rfl⟩

theorem witness_StepKeepsBusInv :
    BusInv (facing [.issueCut (.command 0x03000000) 1]) ∧
    ∃ t, step (facing [.issueCut (.command 0x03000000) 1]) = .next t :=
  ⟨by decide, _, rfl⟩

theorem witness_StepKeepsDeviceInv :
    DeviceInv (facing [.issue (.command 0x02070000)]) ∧
    ∃ t, step (facing [.issue (.command 0x02070000)]) = .next t :=
  ⟨by decide, _, rfl⟩

theorem witness_StepKeepsFaultInv :
    FaultInv { halted with inputs := [.deviceReset] } ∧ ∃ t, step { halted with inputs := [.deviceReset] } = .next t :=
  ⟨fun r h => by cases h; rfl, _, rfl⟩

end Sys2Proof.Tests
end

namespace Sys2Proof.Proofs

/-! SUPPORT. One transaction as the next state the rules give (40_transport.md R113, R114), and the bare frames (30_encoding.md
R90, R91). -/

open Sys2Proof.Machine Sys2Proof.Safety

/-! ## One transaction -/

/-- Assert, exchange and deassert together are one bracket of `out`, and the device acts on the frame at the deassert
(20_memory.md R62). -/
theorem transact_eq_afterFrame (out : U16) (s : State) :
    transact out s = afterFrame out (devOnDeassert s.dev (latchOnXfer .asserted out s.pendingLatch)) s := by
  simp [transact, advance, observe, phaseAfter, afterFrame, bracket, nextDraw]

theorem transact_readFrameWord (a : U3) (s : State) : transact (readFrameWord a) s = afterReadFrame a s := by
  rw [transact_eq_afterFrame, latchOnXfer_readFrameWord, readFrameWord_eq_append]
  rfl

theorem transact_writeFrameWord {a : U3} {v : U16} (s : State) (hv : Narrow v) :
    transact (writeFrameWord a v) s = afterWriteFrame a v s := by
  rw [transact_eq_afterFrame, latchOnXfer_writeFrameWord a v _ hv, writeFrameWord_eq_append a v hv]
  rfl

theorem raiseFault_eq_afterFault (reason : FaultReason) (w : U32) (s : State) :
    raiseFault reason w s = .next (afterFault reason w s) := rfl

/-! ## The bare frames -/

theorem exec_readFrame (a : U3) (s : State) :
    exec (.readFrame a) s = whenInitialized (Instr.readFrame a).word s (.next (transact (readFrameWord a) s)) := rfl

theorem exec_writeFrame (a : U3) (d : U12) (s : State) :
    exec (.writeFrame a d) s =
      whenInitialized (Instr.writeFrame a d).word s (.next (transact (writeFrameWord a (d.setWidth 16)) s)) := rfl

/-- The word a fault record keeps for a bare read frame is the frame, zero-extended (log entry 3). -/
theorem word_readFrame (a : U3) : (Instr.readFrame a).word = (readBits a).setWidth 32 :=
  congrArg (BitVec.setWidth 32) (readFrameWord_eq_append a)

theorem word_writeFrame (a : U3) (d : U12) :
    (Instr.writeFrame a d).word = (writeBits a (d.setWidth 16)).setWidth 32 :=
  congrArg (BitVec.setWidth 32) (writeFrameWord_eq_append a _ (narrow_setWidth d))

/-- Settles O16: past the gate of R110 a bare frame is its transaction, and before INIT the gate records the frame. -/
theorem bareFrameIsOneTransaction : Obligations.BareFrameIsOneTransaction := by
  refine ⟨fun a s ⟨hf, hi⟩ => ?readRuns, fun a d s ⟨hf, hi⟩ => ?writeRuns, fun a s hf hi => ?readFaults,
    fun a d s hf hi => ?writeFaults⟩
  case readRuns => rw [exec_readFrame, whenInitialized_ready hf hi, transact_readFrameWord]
  case writeRuns => rw [exec_writeFrame, whenInitialized_ready hf hi, transact_writeFrameWord s (narrow_setWidth d)]
  case readFaults =>
    rw [exec_readFrame, whenInitialized_before_init hf hi, word_readFrame, raiseFault_eq_afterFault]
  case writeFaults =>
    rw [exec_writeFrame, whenInitialized_before_init hf hi, word_writeFrame, raiseFault_eq_afterFault]

end Sys2Proof.Proofs

namespace Sys2Proof.Proofs

/-! SUPPORT. What one step does to the shadow, to the fault record, to `pc` and to the bus, and what each instruction leaves
unchanged (10_state.md section 1, R38). -/

open Sys2Proof.Machine Sys2Proof.Safety

variable {i : Instr} {p : Packet} {s t : State}

/-! ## What an instruction and a packet can do -/

theorem legalFrame_readFrameWord : ∀ a : U3, legalFrame (readFrameWord a) = true := by decide

/-- A frame with bit 15 clear is a write frame of R91. -/
theorem legalFrame_writeFrameWord (a : U3) {v : U16} (hv : Narrow v) : legalFrame (writeFrameWord a v) = true := by
  have hbit : (writeFrameWord a v).getLsbD 15 = false := frameIsRead_writeFrameWord a v hv
  have hmask : writeFrameWord a v &&& BitVec.twoPow 16 15 = 0 := by rw [BitVec.and_twoPow, hbit]; rfl
  rw [legalFrame, show (0x8000 : U16) = BitVec.twoPow 16 15 by decide, hmask]
  simp

/-- What an instruction can do, by what reaches the bus: nothing (halted, faulted, or a shadow read), the two events of
INIT, or one transaction of a legal frame (40_transport.md R114, R116). -/
theorem exec_by_bus_action (h : exec i s = .next t) :
    (s.fault.isSome = true ∧ t = s) ∨
    (s.fault = none ∧ ∃ reason, t = afterFault reason i.word s) ∨
    (s.fault = none ∧ ∃ resp, t = afterCommand resp s) ∨
    (s.fault = none ∧ s.initialized = false ∧ ∃ l,
      t = { observe .csDeassert (observe (.bind l) s) with
            initialized := true, line := some l, resp := none, pc := s.pc + 1 }) ∨
    (s.fault = none ∧ s.initialized = true ∧ ∃ out x resp pc, legalFrame out = true ∧
      t = { transact out s with shadow := x, resp := resp, pc := pc }) := by
  rcases exec_eq_next h with halted | faulted | ⟨hf, hi, l, _, rfl⟩ | ⟨hf, _, _, _, _, rfl⟩ | ⟨hf, hi, a, _, rfl⟩ |
    ⟨hf, hi, a, _, rfl⟩ | ⟨hf, hi, a, v, _, hv, rfl⟩ | ⟨hf, hi, a, d, _, rfl⟩ | ⟨hf, hi, r, new, _, hn, rfl⟩
  · exact .inl halted
  · exact .inr (.inl faulted)
  · exact .inr (.inr (.inr (.inl ⟨hf, hi, l, rfl⟩)))
  · exact .inr (.inr (.inl ⟨hf, _, rfl⟩))
  all_goals refine .inr (.inr (.inr (.inr ⟨hf, hi, _, _, _, _, ?_, rfl⟩)))
  · exact legalFrame_readFrameWord a
  · exact legalFrame_readFrameWord a
  · exact legalFrame_writeFrameWord a hv
  · exact legalFrame_writeFrameWord a (narrow_setWidth d)
  · exact legalFrame_writeFrameWord r.addr hn

/-- A packet runs its instruction, is ignored on a halted block, or leaves a fault record (R110). -/
theorem runPacket_by_decode (h : runPacket exec p s = .next t) :
    (∃ i, decode p = .instr i ∧ exec i s = .next t) ∨ t = s ∨ ∃ w, t = afterFault .illegalCommand w s := by
  rcases runPacket_eq_next h with hrun | ⟨_, _, h⟩
  · exact .inl hrun
  · rcases illegalPacket_eq_next h with ⟨_, rfl⟩ | ⟨_, w, _, rfl⟩
    · exact .inr (.inl rfl)
    · exact .inr (.inr ⟨w, rfl⟩)

/-- The trace only grows (10_state.md R31). -/
theorem exec_trace_prefix (h : exec i s = .next t) : s.trace <+: t.trace := by
  rcases exec_by_bus_action h with ⟨_, rfl⟩ | ⟨_, _, rfl⟩ | ⟨_, _, rfl⟩ | ⟨_, _, l, rfl⟩ | ⟨_, _, _, _, _, _, _, rfl⟩
  · exact List.prefix_rfl
  · exact List.prefix_rfl
  · exact List.prefix_rfl
  · exact ⟨[.bind l, .csDeassert], by simp⟩
  · exact ⟨_, (transact_trace s _).symm⟩

theorem runPacket_trace_prefix (h : runPacket exec p s = .next t) : s.trace <+: t.trace := by
  rcases runPacket_by_decode h with ⟨_, _, h⟩ | rfl | ⟨_, rfl⟩
  · exact exec_trace_prefix h
  · exact List.prefix_rfl
  · exact List.prefix_rfl

/-! ## Invariants of the step, packaged once -/

/-- Every part a step is made of keeps `Inv`: taking an input, an instruction, a fault record, the resets, and the device's
own clear. For a cut command `t` is the state the whole command would have left. -/
structure KeptByParts (Inv : State → Prop) : Prop where
  inputs : ∀ s rest, Inv s → Inv { s with inputs := rest }
  instr : ∀ i s t, Inv s → exec i s = .next t → Inv t
  fault : ∀ reason w s, Inv s → Inv (afterFault reason w s)
  cut : ∀ k s t, Inv s → Inv t → s.trace <+: t.trace → Inv (cutByReset k s t)
  blockReset : ∀ s, Inv s → Inv (blockReset s)
  powerCycle : ∀ s, Inv s → Inv (powerCycle s)
  deviceReset : ∀ s, Inv s → Inv (deviceReset s)
  selfClear : ∀ s, Inv s → Inv (stepSelfClear s)

theorem KeptByParts.runPacket {Inv : State → Prop} (kept : KeptByParts Inv) (hs : Inv s)
    (h : runPacket exec p s = .next t) : Inv t := by
  rcases runPacket_by_decode h with ⟨i, _, h⟩ | rfl | ⟨w, rfl⟩
  · exact kept.instr i s t hs h
  · exact hs
  · exact kept.fault _ w s hs

theorem KeptByParts.step {Inv : State → Prop} (kept : KeptByParts Inv) (hs : Inv s) (h : step s = .next t) : Inv t := by
  have hrest : ∀ rest, Inv { s with inputs := rest } := fun rest => kept.inputs s rest hs
  rcases step_eq_next h with ⟨_, rfl⟩ | ⟨_, rest, _, h⟩ | ⟨_, k, rest, u, _, hu, rfl⟩ | ⟨rest, _, rfl⟩ | ⟨rest, _, rfl⟩ |
    ⟨rest, _, rfl⟩ | ⟨rest, _, rfl⟩
  · exact hs
  · exact kept.runPacket (hrest rest) h
  · exact kept.cut k _ u (hrest rest) (kept.runPacket (hrest rest) hu) (runPacket_trace_prefix hu)
  · exact kept.blockReset _ (hrest rest)
  · exact kept.powerCycle _ (hrest rest)
  · exact kept.deviceReset _ (hrest rest)
  · exact kept.selfClear _ (hrest rest)

/-! ## The shadow (10_state.md R20 to R27) -/

/-- Only CTRL, TORQUE and OFF are ever written (R22 to R26). -/
theorem register_of_setterTable {x : Shadow} {c : Bool} {r : ShadowReg} {new : U16}
    (h : setterTable x c i = some (r, new)) : r = .ctrl ∨ r = .torque ∨ r = .off := by
  cases i <;> cases h <;> decide

theorem keepsShadow_of_setterTable {x : Shadow} {c : Bool} {r : ShadowReg} {new : U16}
    (h : setterTable x c i = some (r, new)) : keepsShadow i = false := by
  cases i <;> cases h <;> rfl

/-- An instruction changes the shadow only by its row of the setter table (R21). -/
theorem exec_shadow (h : exec i s = .next t) :
    t.shadow = s.shadow ∨ ∃ r new, setterTable s.shadow s.disableClearsAll i = some (r, new) ∧ Narrow new ∧
      t.shadow = s.shadow.set r new := by
  rcases exec_eq_next h with ⟨_, rfl⟩ | ⟨_, _, rfl⟩ | ⟨_, _, _, _, rfl⟩ | ⟨_, _, _, _, _, rfl⟩ | ⟨_, _, _, _, rfl⟩ |
    ⟨_, _, _, _, rfl⟩ | ⟨_, _, _, _, _, _, rfl⟩ | ⟨_, _, _, _, _, rfl⟩ | ⟨_, _, r, new, hrow, hnew, rfl⟩
  pick_goal 9
  · exact .inr ⟨r, new, hrow, hnew, rfl⟩
  all_goals exact .inl (by simp)

theorem shadowInv_reset : ShadowInv State.reset := by decide

/-- A narrow value in a register a setter writes leaves BLANK, DECAY and STATUS alone. -/
theorem shadowInv_set {r : ShadowReg} {new : U16} (hs : ShadowInv s) (hr : r = .ctrl ∨ r = .torque ∨ r = .off)
    (hn : Narrow new) (ht : t.shadow = s.shadow.set r new) : ShadowInv t := by
  obtain ⟨⟨hc, htq, ho, hb, hd, hst⟩, fixed⟩ := hs
  simp only [ShadowInv, ShadowNarrow, ht]
  rcases hr with rfl | rfl | rfl
  · exact ⟨⟨hn, htq, ho, hb, hd, hst⟩, fixed⟩
  · exact ⟨⟨hc, hn, ho, hb, hd, hst⟩, fixed⟩
  · exact ⟨⟨hc, htq, hn, hb, hd, hst⟩, fixed⟩

theorem exec_keeps_shadowInv (hs : ShadowInv s) (h : exec i s = .next t) : ShadowInv t := by
  rcases exec_shadow h with heq | ⟨r, new, hrow, hn, heq⟩
  · simpa only [ShadowInv, ShadowNarrow, heq] using hs
  · exact shadowInv_set hs (register_of_setterTable hrow) hn heq

theorem shadowInv_keptByParts : KeptByParts ShadowInv where
  inputs _ _ hs := hs
  instr _ _ _ := exec_keeps_shadowInv
  fault _ _ _ hs := hs
  cut _ _ _ _ _ _ := shadowInv_reset
  blockReset _ _ := shadowInv_reset
  powerCycle _ _ := shadowInv_reset
  deviceReset _ hs := hs
  selfClear _ hs := hs

/-- Settles O56: a setter writes a narrow value to CTRL, TORQUE or OFF, and a reset restores the reset values. -/
theorem stepKeepsShadowInv : Obligations.StepKeepsShadowInv :=
  fun _ _ => shadowInv_keptByParts.step

/-- Settles O44: of a packet only a row of the setter table touches the shadow; the other inputs reset it or leave it. -/
theorem onlySettersAndResetChangeShadows : Obligations.OnlySettersAndResetChangeShadows := by
  intro s t h hne
  rcases step_eq_next h with ⟨_, rfl⟩ | ⟨p, rest, hin, h⟩ | ⟨_, _, rest, _, hin, _⟩ | ⟨rest, hin, _⟩ | ⟨rest, hin, _⟩ |
    ⟨_, _, rfl⟩ | ⟨_, _, rfl⟩
  · exact absurd rfl hne
  · rcases runPacket_by_decode h with ⟨i, hdec, h⟩ | rfl | ⟨_, rfl⟩
    · rcases exec_shadow h with heq | ⟨_, _, hrow, _⟩
      · exact absurd heq hne
      · exact .inl ⟨p, i, rest, hin, hdec, keepsShadow_of_setterTable hrow⟩
    · exact absurd rfl hne
    · exact absurd rfl hne
  · exact .inr ⟨_, rest, hin, rfl⟩
  · exact .inr ⟨_, rest, hin, rfl⟩
  · exact .inr ⟨_, rest, hin, rfl⟩
  · exact absurd rfl hne
  · exact absurd rfl hne

/-! ## The bus (10_state.md R28 to R31) -/

theorem busScan_cons (q : BusPoint) (e : BusEvent) (es : List BusEvent) :
    busScan q (e :: es) = (busNext q e).bind (fun m => busScan m es) := by
  rw [busScan]
  cases busNext q e <;> rfl

theorem busScan_append (q : BusPoint) (es es' : List BusEvent) :
    busScan q (es ++ es') = (busScan q es).bind (fun m => busScan m es') := by
  induction es generalizing q with
  | nil => rfl
  | cons e es ih => simp [busScan_cons, ih, Option.bind_assoc]

/-- A reader accepts every initial part of a trace it accepts. -/
theorem busScan_prefix {q m : BusPoint} {es es' : List BusEvent} (h : busScan q es' = some m) (hpre : es <+: es') :
    ∃ m', busScan q es = some m' := by
  obtain ⟨rest, rfl⟩ := hpre
  rw [busScan_append, Option.bind_eq_some_iff] at h
  exact h.imp fun _ hm => hm.1

/-- A reset is legal at any point (R234). -/
theorem busNext_reset (q : BusPoint) : busNext q .reset = some .unbound := by cases q <;> rfl

theorem busScan_reset {q m : BusPoint} {es : List BusEvent} (h : busScan q es = some m) :
    busScan q (es ++ [.reset]) = some .unbound := by
  rw [busScan_append, h, Option.bind_some, busScan_cons, busNext_reset]
  rfl

theorem busScan_bracket {out : U16} (inn : U16) (h : legalFrame out = true) :
    busScan .ready (bracket out inn) = some .ready := by
  have hx : busNext .selected (.xfer out inn) = some .exchanged := if_pos h
  calc busScan .ready (bracket out inn)
      = busScan .selected [.xfer out inn, .csDeassert] := rfl
    _ = some .ready := by rw [busScan_cons, hx]; rfl

/-- Outside a transaction nothing is latched (20_memory.md R62). -/
abbrev UnlatchedWhenIdle (s : State) : Prop := s.phase = .idle → s.pendingLatch = none

theorem latchOnCut_eq_none (hs : UnlatchedWhenIdle s) : latchOnCut s.phase s.pendingLatch = none := by
  cases hp : s.phase with
  | idle => exact hs hp
  | selected => rfl
  | exchanged => rfl

theorem advance_unlatchedWhenIdle (e : BusEvent) (hs : UnlatchedWhenIdle s) : UnlatchedWhenIdle (advance s e) := by
  cases e with
  | bind l => exact hs
  | csAssert => intro h; cases h
  | csDeassert => exact fun _ => rfl
  | xfer out inn => intro h; cases h
  | reset => exact fun _ => latchOnCut_eq_none hs

theorem foldl_advance_unlatchedWhenIdle (es : List BusEvent) (hs : UnlatchedWhenIdle s) :
    UnlatchedWhenIdle (es.foldl advance s) := by
  induction es generalizing s with
  | nil => exact hs
  | cons e es ih => exact ih (advance_unlatchedWhenIdle e hs)

theorem foldl_advance_trace (es : List BusEvent) (s : State) : (es.foldl advance s).trace = s.trace ++ es := by
  induction es generalizing s with
  | nil => exact (List.append_nil _).symm
  | cons e es ih => simp [ih]

/-- The events before a cut are the first of those of the whole command (R234). -/
theorem cut_trace_prefix (k : Nat) (h : s.trace <+: t.trace) :
    (((emitted s t).take k).foldl advance s).trace <+: t.trace := by
  obtain ⟨es, hes⟩ := h
  rw [foldl_advance_trace, ← hes, show emitted s t = es by simp [emitted, ← hes]]
  exact (List.prefix_append_right_inj _).2 (List.take_prefix k es)

/-- A reset of the block ends in the protocol wherever the trace follows it (R234). -/
theorem busInv_blockReset {m : BusPoint} (hlatch : UnlatchedWhenIdle s) (htrace : busScan .unbound s.trace = some m) :
    BusInv (blockReset s) :=
  ⟨rfl, latchOnCut_eq_none hlatch, rfl, rfl, busScan_reset htrace⟩

theorem busInv_cutByReset (k : Nat) (hs : BusInv s) (ht : BusInv t) (hpre : s.trace <+: t.trace) :
    BusInv (cutByReset k s t) := by
  obtain ⟨-, hlatch, -⟩ := hs
  obtain ⟨-, -, -, -, htrace⟩ := ht
  obtain ⟨m, hm⟩ := busScan_prefix htrace (cut_trace_prefix k hpre)
  exact busInv_blockReset (foldl_advance_unlatchedWhenIdle _ fun _ => hlatch) hm

/-- INIT takes an unbound line to a ready one (R116). -/
theorem busInv_init (l : U16) (resp : Option U16) (pc : Nat) (hi : s.initialized = false) (hs : BusInv s) :
    BusInv { observe .csDeassert (observe (.bind l) s) with
      initialized := true, line := some l, resp := resp, pc := pc } := by
  obtain ⟨hphase, -, -, -, htrace⟩ := hs
  have hscan : busScan .unbound s.trace = some .unbound := by simpa [hi] using htrace
  refine ⟨hphase, rfl, rfl, rfl, ?_⟩
  rw [observe_trace, observe_trace, List.append_assoc, busScan_append, hscan]
  rfl

/-- A transaction of a legal frame takes a ready line back to a ready one (R113). -/
theorem busInv_transact {out : U16} (hout : legalFrame out = true) (hi : s.initialized = true) (hs : BusInv s) :
    BusInv (transact out s) := by
  obtain ⟨-, -, -, hline, htrace⟩ := hs
  have hscan : busScan .unbound s.trace = some .ready := by simpa [hi] using htrace
  refine ⟨transact_phase s out, transact_pendingLatch s out, by simp [hi], by simpa using hline, ?_⟩
  rw [transact_initialized, hi, transact_eq_afterFrame, afterFrame, busScan_append, hscan]
  exact busScan_bracket _ hout

theorem exec_keeps_busInv (hs : BusInv s) (h : exec i s = .next t) : BusInv t := by
  rcases exec_by_bus_action h with ⟨_, rfl⟩ | ⟨_, _, rfl⟩ | ⟨_, _, rfl⟩ | ⟨_, hi, l, rfl⟩ |
    ⟨_, hi, out, _, _, _, hout, rfl⟩
  · exact hs
  · exact hs
  · exact hs
  · exact busInv_init l _ _ hi hs
  · exact busInv_transact hout hi hs

theorem busInv_keptByParts : KeptByParts BusInv where
  inputs _ _ hs := hs
  instr _ _ _ := exec_keeps_busInv
  fault _ _ _ hs := hs
  cut k _ _ := busInv_cutByReset k
  blockReset _ := fun ⟨_, hlatch, _, _, htrace⟩ => busInv_blockReset (fun _ => hlatch) htrace
  powerCycle _ _ := ⟨rfl, rfl, rfl, rfl, rfl⟩
  deviceReset _ := fun ⟨hphase, _, rest⟩ => ⟨hphase, rfl, rest⟩
  selfClear _ hs := hs

/-- Settles O57: each instruction adds no event, INIT's two, or one bracket; a cut leaves the first of these and then a
reset, which is legal at any point. -/
theorem stepKeepsBusInv : Obligations.StepKeepsBusInv :=
  fun _ _ => busInv_keptByParts.step

/-! ## The fault record (10_state.md R32, R34) -/

/-- A state without a fault meets the invariant, whatever its `pc`. -/
theorem faultInv_of_running (h : s.fault = none) : FaultInv s := by
  intro r hr
  rw [h] at hr
  cases hr

/-- A fault is recorded at the current `pc` (R206). -/
theorem faultInv_afterFault (reason : FaultReason) (w : U32) (s : State) : FaultInv (afterFault reason w s) := by
  intro r hr
  cases hr
  rfl

theorem exec_keeps_faultInv (hs : FaultInv s) (h : exec i s = .next t) : FaultInv t := by
  rcases exec_by_bus_action h with ⟨_, rfl⟩ | ⟨_, reason, rfl⟩ | ⟨hf, _, rfl⟩ | ⟨hf, _, _, rfl⟩ |
    ⟨hf, _, _, _, _, _, _, rfl⟩
  · exact hs
  · exact faultInv_afterFault reason _ s
  all_goals exact faultInv_of_running hf

theorem faultInv_keptByParts : KeptByParts FaultInv where
  inputs _ _ hs := hs
  instr _ _ _ := exec_keeps_faultInv
  fault reason w s _ := faultInv_afterFault reason w s
  cut _ _ _ _ _ _ := faultInv_of_running rfl
  blockReset _ _ := faultInv_of_running rfl
  powerCycle _ _ := faultInv_of_running rfl
  deviceReset _ hs := hs
  selfClear _ hs := hs

/-- Settles O59: a fault is recorded at the current `pc`, and a block with a fault recorded runs no command. -/
theorem stepKeepsFaultInv : Obligations.StepKeepsFaultInv :=
  fun _ _ => faultInv_keptByParts.step

/-! ## What each instruction leaves unchanged (10_state.md R38) -/

/-- Past the gate of R110 a next state is the run's, or differs in the fault record at most. -/
theorem whenInitialized_keeps_or_runs {w : U32} {run : Result} (h : whenInitialized w s run = .next t) :
    (∃ f, t = { s with fault := f }) ∨ run = .next t := by
  rcases whenInitialized_eq_next h with ⟨_, rfl⟩ | ⟨_, _, rfl⟩ | ⟨_, _, h⟩
  · exact .inl ⟨_, rfl⟩
  · exact .inl ⟨_, rfl⟩
  · exact .inr h

theorem exec_init_keeps_or_binds {l : U16} (h : exec (.init l) s = .next t) :
    (∃ f, t = { s with fault := f }) ∨
    t = { observe .csDeassert (observe (.bind l) s) with
          initialized := true, line := some l, resp := none, pc := s.pc + 1 } := by
  rcases whenRunning_eq_next h with ⟨_, rfl⟩ | ⟨_, h⟩
  · exact .inl ⟨_, rfl⟩
  · split at h
    · exact .inl ⟨_, raiseFault_eq_next h⟩
    · exact .inr (complete_eq_next h)

/-- READ_SHADOW writes no more than the response port, `pc` and the fault record (R175). -/
theorem exec_readShadow_keeps {a : U3} (h : exec (.readShadow a) s = .next t) :
    ∃ resp pc f, t = { s with resp := resp, pc := pc, fault := f } := by
  rcases whenRunning_eq_next h with ⟨_, rfl⟩ | ⟨_, h⟩
  · exact ⟨_, _, _, rfl⟩
  · split at h
    · exact ⟨_, _, _, complete_eq_next h⟩
    · exact ⟨_, _, _, raiseFault_eq_next h⟩

theorem exec_read (a : U3) :
    exec (.read a) s =
      whenInitialized (Instr.read a).word s (complete (some (nextDraw s)) (transact (readFrameWord a) s)) := rfl

theorem exec_write (a : U3) (v : U16) :
    exec (.write a v) s =
      whenInitialized (Instr.write a v).word s (memWrite (Instr.write a v).word a v id s) := rfl

/-- READ and READ_FRAME differ only in what they do to the response port and `pc` (log entry 3). -/
theorem exec_read_keeps_or_transacts {a : U3} (hi : i = .read a ∨ i = .readFrame a) (h : exec i s = .next t) :
    (∃ f, t = { s with fault := f }) ∨
    ∃ resp pc, t = { transact (readFrameWord a) s with resp := resp, pc := pc } := by
  rcases hi with rfl | rfl
  · rw [exec_read] at h
    exact (whenInitialized_keeps_or_runs h).imp_right fun h => ⟨_, _, complete_eq_next h⟩
  · rw [exec_readFrame] at h
    exact (whenInitialized_keeps_or_runs h).imp_right fun h => ⟨_, _, (Host.Outcome.next.inj h).symm⟩

/-- The same for WRITE and WRITE_FRAME, whose data fits 12 bits when a frame is sent (R112). -/
theorem exec_write_keeps_or_transacts {a : U3} (hi : (∃ v, i = .write a v) ∨ ∃ d, i = .writeFrame a d)
    (h : exec i s = .next t) :
    (∃ f, t = { s with fault := f }) ∨
    ∃ v resp pc, Narrow v ∧ t = { transact (writeFrameWord a v) s with resp := resp, pc := pc } := by
  rcases hi with ⟨v, rfl⟩ | ⟨d, rfl⟩
  · rw [exec_write] at h
    rcases whenInitialized_keeps_or_runs h with kept | h
    · exact .inl kept
    · rcases memWrite_eq_next h with ⟨_, rfl⟩ | ⟨hv, rfl⟩
      · exact .inl ⟨_, rfl⟩
      · exact .inr ⟨v, _, _, tooWide_eq_false.1 hv, rfl⟩
  · rw [exec_writeFrame] at h
    exact (whenInitialized_keeps_or_runs h).imp_right fun h =>
      ⟨_, _, _, narrow_setWidth d, (Host.Outcome.next.inj h).symm⟩

/-- With no write latched, a read frame changes no device register (20_memory.md R62, R63). -/
theorem dev_transact_readFrameWord (a : U3) (hl : s.pendingLatch = none) :
    (transact (readFrameWord a) s).dev = s.dev := by
  rw [transact_dev, latchOnXfer_readFrameWord, hl, devOnDeassert_none]

/-- A write frame changes only the device register at its address (20_memory.md R62). -/
theorem read_dev_transact_writeFrameWord_other {a : U3} {v : U16} {b : Nat} (s : State) (hv : Narrow v)
    (hb : b ≠ a.toNat) : Memory.read (transact (writeFrameWord a v) s).dev b = Memory.read s.dev b := by
  rw [transact_dev, latchOnXfer_writeFrameWord a v _ hv, read_devOnDeassert_some, if_neg hb]

/-- Settles O45: INIT adds its two events and READ_SHADOW none; with nothing latched INIT's deassert leaves the device. -/
theorem frameOfInitAndReadShadow : Obligations.FrameOfInitAndReadShadow := by
  refine ⟨fun l s t h => ?init, fun a s t h => ?readShadow⟩
  case init =>
    rcases exec_init_keeps_or_binds h with ⟨_, rfl⟩ | rfl
    · exact ⟨rfl, rfl, rfl, rfl, rfl, fun hl => ⟨hl, fun _ => rfl⟩⟩
    · refine ⟨rfl, rfl, rfl, rfl, rfl, fun hl => ⟨rfl, fun a => ?_⟩⟩
      simp [observe, hl]
  case readShadow =>
    obtain ⟨_, _, _, rfl⟩ := exec_readShadow_keeps h
    exact ⟨rfl, fun _ => rfl⟩

/-- A bare frame leaves `pc` and the response port to the commands (log entry 3). -/
theorem exec_bareFrame_keeps_pc_resp (hi : isCommand i = false) (h : exec i s = .next t) :
    t.pc = s.pc ∧ t.resp = s.resp := by
  have gate : ∀ {w : U32} {out : U16}, whenInitialized w s (.next (transact out s)) = .next t →
      t.pc = s.pc ∧ t.resp = s.resp := fun h => by
    rcases whenInitialized_keeps_or_runs h with ⟨_, rfl⟩ | h
    · exact ⟨rfl, rfl⟩
    · cases h; exact ⟨transact_pc s _, transact_resp s _⟩
  cases i with
  | readFrame a => exact gate h
  | writeFrame a d => exact gate h
  | _ => cases hi

/-- Settles O46: each of the four is at most one transaction, of a read frame or of a write frame to its address. -/
theorem frameOfTransport : Obligations.FrameOfTransport := by
  refine ⟨fun i s t hi h => ?reads, fun i a s t hi h => ?writes, fun i s t hi h => exec_bareFrame_keeps_pc_resp hi h⟩
  case reads =>
    obtain ⟨a, hi⟩ := hi
    rcases exec_read_keeps_or_transacts hi h with ⟨_, rfl⟩ | ⟨_, _, rfl⟩
    · exact ⟨rfl, rfl, rfl, rfl, rfl, fun hl => ⟨hl, fun _ => rfl⟩⟩
    · refine ⟨by simp, by simp, by simp, by simp, by simp, fun hl => ⟨by simp, fun b => ?_⟩⟩
      exact congrArg (Memory.read · b) (dev_transact_readFrameWord a hl)
  case writes =>
    rcases exec_write_keeps_or_transacts hi h with ⟨_, rfl⟩ | ⟨v, _, _, hv, rfl⟩
    · exact ⟨rfl, rfl, rfl, rfl, rfl, fun _ _ => rfl⟩
    · exact ⟨by simp, by simp, by simp, by simp, by simp, fun _ => read_dev_transact_writeFrameWord_other s hv⟩

/-- Settles O47: a setter writes its one shadow and sends one write frame to that register's address. -/
theorem frameOfSetters : Obligations.FrameOfSetters := by
  intro i r s t hr h
  obtain ⟨new, -, hexec⟩ := exec_of_targetOf hr s
  rw [hexec] at h
  rcases setter_eq_next h with ⟨_, rfl⟩ | ⟨_, _, rfl⟩ | ⟨_, _, hw, rfl⟩
  · exact ⟨fun _ _ => rfl, rfl, rfl, rfl, rfl, fun _ _ => rfl⟩
  · exact ⟨fun _ _ => rfl, rfl, rfl, rfl, rfl, fun _ _ => rfl⟩
  · exact ⟨fun q hq => Shadow.get_set_other s.shadow q r new hq, rfl, rfl, rfl, rfl,
      fun _ => read_dev_transact_writeFrameWord_other (setShadow r new s) (tooWide_eq_false.1 hw)⟩

/-! ## Completion (10_state.md R32, R33) -/

/-- How a command that starts without a fault ends: with a fault record and nothing else, or completed, the response port
holding a result only after READ and READ_SHADOW (R32, R33). -/
theorem exec_command_ends (hcmd : isCommand i = true) (hf : s.fault = none) (h : exec i s = .next t) :
    (∃ reason, t = afterFault reason i.word s) ∨
    (t.fault = none ∧ t.pc = s.pc + 1 ∧ ((∃ a, i = .read a) ∨ (∃ a, i = .readShadow a) ∨ t.resp = none)) := by
  rcases exec_eq_next h with ⟨hhalt, _⟩ | ⟨_, faulted⟩ | ⟨_, _, _, _, rfl⟩ | ⟨_, a, _, hi, _, rfl⟩ |
    ⟨_, _, a, hi, rfl⟩ | ⟨_, _, _, rfl, _⟩ | ⟨_, _, _, _, _, _, rfl⟩ | ⟨_, _, _, _, rfl, _⟩ | ⟨_, _, _, _, _, _, rfl⟩
  · simp [hf] at hhalt
  · exact .inl faulted
  · exact .inr ⟨hf, rfl, .inr (.inr rfl)⟩
  · exact .inr ⟨hf, rfl, .inr (.inl ⟨a, hi⟩)⟩
  · exact .inr ⟨hf, rfl, .inl ⟨a, hi⟩⟩
  · cases hcmd
  · exact .inr ⟨hf, rfl, .inr (.inr rfl)⟩
  · cases hcmd
  · exact .inr ⟨hf, rfl, .inr (.inr rfl)⟩

/-- A READ that completes puts the word of its exchange on the response port (R117). -/
theorem exec_read_completed {a : U3} (hs : s.fault = none) (h : exec (.read a) s = .next t) (ht : t.fault = none) :
    t = afterCommand (some (nextDraw s)) (transact (readFrameWord a) s) := by
  rw [exec_read] at h
  rcases whenInitialized_eq_next h with ⟨hhalt, _⟩ | ⟨_, _, rfl⟩ | ⟨_, _, h⟩
  · simp [hs] at hhalt
  · cases ht
  · exact complete_eq_next h

/-- READ_SHADOW of a register's address completes on every block without a fault (R175). -/
theorem exec_readShadow_addr (r : ShadowReg) (hs : s.fault = none) :
    exec (.readShadow r.addr) s = .next (afterCommand (some (s.shadow.get r)) s) := by
  have haddr : shadowAt r.addr = some r := by cases r <;> rfl
  change execReadShadow r.addr s = _
  rw [execReadShadow, whenRunning_running hs, haddr]
  rfl

/-- Settles O43: a command ends in a fault record alone, or completes with `pc` one further and its response. -/
theorem pcAndResponseFollowCompletion : Obligations.PcAndResponseFollowCompletion := by
  refine ⟨fun i s t hcmd hf h => ?command, fun a s t hf h ht => ?read, fun r s t hf h => ?readShadow, rfl, rfl⟩
  case command =>
    rcases exec_command_ends hcmd hf h with ⟨_, rfl⟩ | ⟨ht, hpc, hresp⟩
    · exact ⟨nofun, fun _ => ⟨rfl, rfl⟩, nofun⟩
    · refine ⟨fun _ => hpc, fun hne => absurd ht hne, fun _ hread hshadow => ?_⟩
      rcases hresp with ⟨a, hi⟩ | ⟨a, hi⟩ | hnone
      · exact absurd hi (hread a)
      · exact absurd hi (hshadow a)
      · exact hnone
  case read =>
    rw [exec_read_completed hf h ht]
    exact ⟨readFrameWord a, nextDraw s, transact_trace s _, rfl⟩
  case readShadow =>
    rw [exec_readShadow_addr r hf] at h
    cases h
    rfl

/-! ## Reset (10_state.md R39, 70_reset_and_hazards.md R230, R231) -/

theorem step_blockReset {rest : List Input} (h : s.inputs = .blockReset :: rest) :
    step s = .next (blockReset { s with inputs := rest }) := by
  simp [step, serve, h, respondTo]

/-- Settles O1: power-on and a reset of the block by R39's table; a reset between commands finds no transaction to cut. -/
theorem resetLeavesTheStatedValues : Obligations.ResetLeavesTheStatedValues := by
  refine ⟨by decide, fun s rest h => ⟨_, step_blockReset h, ?_⟩⟩
  refine ⟨rfl, rfl, rfl, rfl, rfl, rfl, rfl, rfl, rfl, rfl, rfl, rfl, rfl, rfl, rfl, fun hidle => ?_⟩
  simp [hidle, devOnCut]

theorem busInv_reset : BusInv State.reset := by decide

theorem deviceInv_reset : DeviceInv State.reset := by decide

/-- Settles O60: none of the four invariants reads the inputs or the parameter, and power-on meets each. -/
theorem resetMeetsTheInvariants : Obligations.ResetMeetsTheInvariants :=
  fun _ _ => ⟨shadowInv_reset, busInv_reset, deviceInv_reset, faultInv_of_running rfl⟩

end Sys2Proof.Proofs

namespace Sys2Proof.Proofs

/-! SUPPORT. The device register space under every bus event (20_memory.md R61 to R65). -/

open Sys2Proof.Machine Sys2Proof.Safety

variable {i : Instr} {p : Packet} {s t : State}

/-! ## What an operation on the register space keeps of every entry -/

theorem all_write {m : Memory} {ok : Nat × U16 → Bool} {a : Nat} {v : U16} (hm : m.all ok = true)
    (hv : ok (a, v) = true) : (Memory.write m a v).all ok = true := by
  induction m with
  | nil => simpa [Memory.write] using hv
  | cons c m ih =>
    obtain ⟨hc, hrest⟩ := Bool.and_eq_true_iff.1 hm
    rw [Memory.write]
    split
    · exact Bool.and_eq_true_iff.2 ⟨hv, hm⟩
    · split
      · exact Bool.and_eq_true_iff.2 ⟨hv, hrest⟩
      · exact Bool.and_eq_true_iff.2 ⟨hc, ih hrest⟩

theorem all_erase {m : Memory} {ok : Nat × U16 → Bool} (a : Nat) (hm : m.all ok = true) :
    (Memory.erase m a).all ok = true := by
  induction m with
  | nil => rfl
  | cons c m ih =>
    obtain ⟨hc, hrest⟩ := Bool.and_eq_true_iff.1 hm
    rw [Memory.erase]
    split
    · exact ih hrest
    · exact Bool.and_eq_true_iff.2 ⟨hc, ih hrest⟩

theorem mem_of_read {m : Memory} {a : Nat} {v : U16} (h : Memory.read m a = some v) : (a, v) ∈ m := by
  induction m with
  | nil => cases h
  | cons c m ih =>
    rw [Memory.read] at h
    split at h
    · next ha => cases h; cases ha; exact List.mem_cons_self
    · exact List.mem_cons_of_mem _ (ih h)

/-! ## The registers the device keeps (R61, R62) -/

/-- The part of `DeviceInv` about one register: it is one of 0x0 to 0x4 and its value has at most 12 bits. -/
def entryOk (c : Nat × U16) : Bool := decide (c.1 ≤ 4) && decide (c.2.extractLsb' 12 4 = 0)

/-- `DeviceInv` but for the latch. -/
abbrev RegistersOk (dev : Memory) : Prop := Memory.wf dev = true ∧ dev.all entryOk = true

theorem deviceInv_iff : DeviceInv s ↔ RegistersOk s.dev ∧ s.pendingLatch = none := and_assoc.symm

theorem entryOk_iff {a : Nat} {v : U16} : entryOk (a, v) = true ↔ a ≤ 4 ∧ Narrow v := by simp [entryOk, Narrow]

theorem registersOk_devDefaults : RegistersOk devDefaults := by decide

theorem registersOk_write {dev : Memory} {a : Nat} {v : U16} (h : RegistersOk dev) (ha : a ≤ 4) (hv : Narrow v) :
    RegistersOk (Memory.write dev a v) :=
  ⟨Memory.wf_write dev a v (by omega) h.1, all_write h.2 (entryOk_iff.2 ⟨ha, hv⟩)⟩

theorem registersOk_erase {dev : Memory} (a : Nat) (h : RegistersOk dev) : RegistersOk (Memory.erase dev a) :=
  ⟨Memory.wf_erase dev a h.1, all_erase a h.2⟩

theorem registersOk_devOnDeassert {dev : Memory} (latch : Option (U3 × U12)) (h : RegistersOk dev) :
    RegistersOk (devOnDeassert dev latch) := by
  cases latch with
  | none => exact h
  | some frame =>
    rw [devOnDeassert]
    split
    · next ha => exact registersOk_write h ha (narrow_setWidth frame.2)
    · exact registersOk_erase _ h

theorem registersOk_devOnCut {dev : Memory} (phase : Phase) (latch : Option (U3 × U12)) (h : RegistersOk dev) :
    RegistersOk (devOnCut phase dev latch) := by
  match phase, latch with
  | .idle, _ => exact h
  | .exchanged, some (a, _) => exact registersOk_erase a.toNat h
  | .exchanged, none => exact h
  | .selected, _ => exact ⟨rfl, rfl⟩

theorem registersOk_devOnSelfClear {dev : Memory} (h : RegistersOk dev) : RegistersOk (devOnSelfClear dev) := by
  rw [devOnSelfClear]
  split
  · next v hv =>
    have hentry : entryOk (0, v) = true := List.all_eq_true.1 h.2 _ (mem_of_read hv)
    exact registersOk_write h (Nat.zero_le 4) (narrow_and (entryOk_iff.1 hentry).2)
  · exact h

/-- Every bus event, wherever it comes, leaves the device's registers in order. -/
theorem registersOk_observe (e : BusEvent) (h : RegistersOk s.dev) : RegistersOk (observe e s).dev := by
  cases e with
  | bind l => exact h
  | csAssert => exact h
  | csDeassert => exact registersOk_devOnDeassert _ h
  | xfer out inn => exact h
  | reset => exact registersOk_devOnCut _ _ h

theorem registersOk_foldl_advance (es : List BusEvent) (h : RegistersOk s.dev) :
    RegistersOk (es.foldl advance s).dev := by
  induction es generalizing s with
  | nil => exact h
  | cons e es ih => exact ih (registersOk_observe e h)

theorem registersOk_transact (out : U16) (h : RegistersOk s.dev) : RegistersOk (transact out s).dev :=
  registersOk_devOnDeassert _ h

theorem deviceInv_blockReset (hdev : RegistersOk s.dev) (hlatch : UnlatchedWhenIdle s) : DeviceInv (blockReset s) :=
  deviceInv_iff.2 ⟨registersOk_devOnCut s.phase s.pendingLatch hdev, latchOnCut_eq_none hlatch⟩

theorem exec_keeps_deviceInv (hs : DeviceInv s) (h : exec i s = .next t) : DeviceInv t := by
  have hdev : RegistersOk s.dev := (deviceInv_iff.1 hs).1
  rcases exec_by_bus_action h with ⟨_, rfl⟩ | ⟨_, _, rfl⟩ | ⟨_, _, rfl⟩ | ⟨_, _, l, rfl⟩ | ⟨_, _, out, _, _, _, _, rfl⟩
  · exact hs
  · exact hs
  · exact hs
  · exact deviceInv_iff.2 ⟨registersOk_devOnDeassert _ hdev, rfl⟩
  · exact deviceInv_iff.2 ⟨registersOk_transact out hdev, rfl⟩

theorem deviceInv_keptByParts : KeptByParts DeviceInv where
  inputs _ _ hs := hs
  instr _ _ _ := exec_keeps_deviceInv
  fault _ _ _ hs := hs
  cut k s t hs _ _ := by
    obtain ⟨hdev, hlatch⟩ := deviceInv_iff.1 hs
    exact deviceInv_blockReset (registersOk_foldl_advance _ hdev) (foldl_advance_unlatchedWhenIdle _ fun _ => hlatch)
  blockReset _ hs := by
    obtain ⟨hdev, hlatch⟩ := deviceInv_iff.1 hs
    exact deviceInv_blockReset hdev fun _ => hlatch
  powerCycle _ _ := deviceInv_iff.2 ⟨registersOk_devDefaults, rfl⟩
  deviceReset _ _ := deviceInv_iff.2 ⟨registersOk_devDefaults, rfl⟩
  selfClear _ hs := by
    obtain ⟨hdev, hlatch⟩ := deviceInv_iff.1 hs
    exact deviceInv_iff.2 ⟨registersOk_devOnSelfClear hdev, hlatch⟩

/-- Settles O58: every bus event, a cut and the device's own clear keep the registers in order, and each part of a step
ends with the latch empty. -/
theorem stepKeepsDeviceInv : Obligations.StepKeepsDeviceInv :=
  fun _ _ => deviceInv_keptByParts.step

end Sys2Proof.Proofs

namespace Sys2Proof.Proofs

/-! SUPPORT. The order of a frame's bits and bytes on the wire (20_memory.md R55). -/

open Sys2Proof.Machine

/-- One bit more: it becomes bit 0 and the bits before it move up. -/
theorem getLsbD_shiftIn (acc : U16) (b : Bool) {j : Nat} (hj : j < 16) :
    (shiftIn acc b).getLsbD j = if j = 0 then b else acc.getLsbD (j - 1) := by
  cases j with
  | zero => simp [shiftIn]
  | succ j => simp [shiftIn, hj, BitVec.getLsbD_eq_getElem (show j < 16 by omega)]

/-- Bit `j` of the word received is the bit that came `j` places before the last. -/
theorem getLsbD_ofWireBits_reverse (received : List Bool) {j : Nat} (hj : j < 16) :
    (ofWireBits received.reverse).getLsbD j = received.getD j false := by
  induction received generalizing j with
  | nil => simp [ofWireBits]
  | cons b bs ih =>
    have hlast : ofWireBits (b :: bs).reverse = shiftIn (ofWireBits bs.reverse) b := by
      simp [ofWireBits]
    rw [hlast, getLsbD_shiftIn _ b hj]
    cases j with
    | zero => rfl
    | succ j => simpa using ih (by omega)

theorem length_wireBits (w : U16) : (wireBits w).length = 16 := by simp [wireBits]

theorem getElem?_wireBits (w : U16) {k : Nat} (hk : k < 16) : (wireBits w)[k]? = some (w.getLsbD (15 - k)) := by
  simp [wireBits, hk]

theorem ofWireBits_wireBits (w : U16) : ofWireBits (wireBits w) = w := by
  apply BitVec.eq_of_getLsbD_eq
  intro j hj
  have hrev : (wireBits w).reverse[j]? = some (w.getLsbD j) := by
    rw [List.getElem?_reverse (by simpa [length_wireBits] using hj), length_wireBits, getElem?_wireBits w (by omega)]
    congr 2
    omega
  rw [← List.reverse_reverse (wireBits w), getLsbD_ofWireBits_reverse _ hj, List.getD_eq_getElem?_getD, hrev]
  rfl

theorem joinBytes_frameBytes (w : U16) : joinBytes (frameBytes w).1 (frameBytes w).2 = w := by
  have hjoin : w.extractLsb' 8 8 ++ w.extractLsb' 0 8 = w.extractLsb' 0 16 :=
    BitVec.extractLsb'_append_extractLsb'_eq_extractLsb' rfl
  rw [joinBytes, frameBytes, hjoin, BitVec.extractLsb'_eq_self]

/-- The first eight bits shifted are the high byte's and the last eight the low byte's. -/
theorem wireBits_eq_bytes (w : U16) :
    wireBits w = (List.range 8).map (fun k => (frameBytes w).1.getLsbD (7 - k)) ++
      (List.range 8).map (fun k => (frameBytes w).2.getLsbD (7 - k)) := by
  rw [wireBits, List.range_add (n := 8) (m := 8), List.map_append, List.map_map]
  congr 1
  · refine List.map_congr_left fun k hk => ?_
    rw [List.mem_range] at hk
    simp [frameBytes, show 7 - k < 8 by omega, show 8 + (7 - k) = 15 - k by omega]
  · refine List.map_congr_left fun k hk => ?_
    rw [List.mem_range] at hk
    simp [frameBytes, show 7 - k < 8 by omega, show 15 - (8 + k) = 7 - k by omega]

/-- Settles O54: bit by bit, from what one shifted bit does to the word received. -/
theorem framesGoMostSignificantBitFirst : Obligations.FramesGoMostSignificantBitFirst :=
  fun w => ⟨length_wireBits w, fun _ => getElem?_wireBits w, ofWireBits_wireBits w, joinBytes_frameBytes w,
    wireBits_eq_bytes w⟩

end Sys2Proof.Proofs

namespace Sys2Proof.Proofs

/-! SUPPORT. What the device holds after a whole bracket (20_memory.md R62, R63), after one cut by a reset (R65), and after its
own clear of the STEP bit (R64). -/

open Sys2Proof.Machine Sys2Proof.Safety

variable {i : Instr} {p : Packet} {s t : State}

/-! ## A whole bracket -/

/-- A frame with bit 15 clear is latched with the address and the data it carries (R62). -/
theorem latchOnXfer_write {out : U16} (latch : Option (U3 × U12)) (h : out.getLsbD 15 = false) :
    latchOnXfer .asserted out latch = some (out.extractLsb' 12 3, out.extractLsb' 0 12) :=
  if_pos ⟨rfl, h⟩

/-- A frame with bit 15 set leaves the latch (R63). -/
theorem latchOnXfer_read {out : U16} (latch : Option (U3 × U12)) (h : out.getLsbD 15 = true) :
    latchOnXfer .asserted out latch = latch :=
  if_neg fun ⟨_, hwrite⟩ => nomatch h.symm.trans hwrite

/-- An instruction that adds one bracket of `out` ran the transaction of `out`. -/
theorem exec_eq_transact_of_bracket {out inn : U16} (h : exec i s = .next t)
    (htrace : t.trace = s.trace ++ bracket out inn) :
    ∃ x resp pc, t = { transact out s with shadow := x, resp := resp, pc := pc } := by
  have hsame : s.trace ≠ s.trace ++ bracket out inn := by simp [bracket]
  rcases exec_by_bus_action h with ⟨_, rfl⟩ | ⟨_, _, rfl⟩ | ⟨_, _, rfl⟩ | ⟨_, _, l, rfl⟩ |
    ⟨_, _, out', x, resp, pc, _, rfl⟩
  · exact absurd htrace hsame
  · exact absurd htrace hsame
  · exact absurd htrace hsame
  · simp [bracket] at htrace
  · have hevents : bracket out' (nextDraw s) = bracket out inn :=
      List.append_cancel_left ((transact_trace s out').symm.trans htrace)
    have hout : out' = out := by
      injection hevents with _ hevents
      injection hevents with hxfer
      injection hxfer
    exact ⟨x, resp, pc, hout ▸ rfl⟩

/-- Settles O48: the frame is latched at the exchange, and the deassert writes it or makes its register unknown. -/
theorem writeFramesLatchAtDeassert : Obligations.WriteFramesLatchAtDeassert := by
  intro i s t out inn h htrace hwrite
  obtain ⟨_, _, _, rfl⟩ := exec_eq_transact_of_bracket h htrace
  refine ⟨rfl, fun b => ?_⟩
  change Memory.read (transact out s).dev b.toNat = _
  rw [transact_dev, latchOnXfer_write _ hwrite, read_devOnDeassert_some]
  by_cases hb : b = out.extractLsb' 12 3
  · rw [if_pos hb, if_pos (congrArg BitVec.toNat hb), hb]
  · rw [if_neg hb, if_neg fun e => hb (BitVec.eq_of_toNat_eq e)]

/-- Settles O49: the response of a READ is the word of its exchange, which the hypothesis ties to the device. -/
theorem readReturnsTheDeviceRegister : Obligations.ReadReturnsTheDeviceRegister := by
  intro a v s ⟨hf, hi⟩ hecho hv
  refine ⟨afterCommand (some (nextDraw s)) (transact (readFrameWord a) s), nextDraw s, ?_, rfl, hecho v hv⟩
  rw [exec_read, whenInitialized_ready hf hi]
  rfl

/-! ## A bracket cut by a reset -/

theorem emitted_of_trace_eq {es : List BusEvent} (h : t.trace = s.trace ++ es) : emitted s t = es := by
  rw [emitted, h, List.drop_left]

/-- The next input is taken and served. -/
theorem step_of_inputs {inp : Input} {rest : List Input} (h : s.inputs = inp :: rest) :
    step s = respondTo exec inp { s with inputs := rest } := by
  rw [step, serve, h]

/-- A cut of the packet that the step would have run whole. -/
theorem step_issueCut (k : Nat) (h : step (present p s) = .next t) :
    step { s with inputs := .issueCut p k :: s.inputs } = .next (cutByReset k s t) := by
  rw [step_present] at h
  rw [step_of_inputs rfl, respondTo, h]

/-- Cut after the assert, the exchange is interrupted and no register is known (R65). -/
theorem cutByReset_one_of_bracket {out inn : U16} (h : t.trace = s.trace ++ bracket out inn) :
    (cutByReset 1 s t).dev = [] ∧ (cutByReset 1 s t).pendingLatch = none := by
  rw [cutByReset, emitted_of_trace_eq h]
  exact ⟨rfl, rfl⟩

/-- Cut after the exchange, the outcome depends on what the exchange latched (R65). -/
theorem cutByReset_two_of_bracket {out inn : U16} (h : t.trace = s.trace ++ bracket out inn) :
    (cutByReset 2 s t).dev = devOnCut .exchanged s.dev (latchOnXfer .asserted out s.pendingLatch) ∧
      (cutByReset 2 s t).pendingLatch = none := by
  rw [cutByReset, emitted_of_trace_eq h]
  exact ⟨rfl, rfl⟩

/-- Settles O51: of the bracket's events the first or the first two happen, and the reset that follows interrupts it. -/
theorem interruptedFrameMakesRegistersUnknown : Obligations.InterruptedFrameMakesRegistersUnknown := by
  intro p s t out inn hlatch h htrace
  obtain ⟨hdev1, hlatch1⟩ := cutByReset_one_of_bracket htrace
  obtain ⟨hdev2, hlatch2⟩ := cutByReset_two_of_bracket htrace
  refine ⟨⟨_, step_issueCut 1 h, hlatch1, fun b => ?selected⟩, ⟨_, step_issueCut 2 h, hlatch2, fun hread b => ?readFrame,
    fun hwrite b => ?writeFrame⟩⟩
  case selected => rw [hdev1, Memory.read_nil]
  case readFrame => rw [hdev2, latchOnXfer_read _ hread, hlatch, devOnCut]
  case writeFrame =>
    rw [hdev2, latchOnXfer_write _ hwrite, devOnCut, Memory.read_erase]
    exact if_congr BitVec.toNat_inj rfl rfl

/-! ## A setter's frame -/

/-- Only CTRL, TORQUE and OFF have setters, and their registers are among those a write frame reaches. -/
theorem addr_le_of_setterTable {x : Shadow} {c : Bool} {r : ShadowReg} {new : U16}
    (h : setterTable x c i = some (r, new)) : r.addr.toNat ≤ 4 := by
  rcases register_of_setterTable h with rfl | rfl | rfl <;> decide

/-- A write frame to one of 0x0 to 0x4 stores its value there and nothing elsewhere (R62). -/
theorem read_dev_transact_writeFrameWord {a : U3} {v : U16} (s : State) (hv : Narrow v) (ha : a.toNat ≤ 4) (b : Nat) :
    Memory.read (transact (writeFrameWord a v) s).dev b = if b = a.toNat then some v else Memory.read s.dev b := by
  rw [transact_dev, latchOnXfer_writeFrameWord a v _ hv, read_devOnDeassert_some, if_pos ha, setWidth_extract v hv]

/-- A setter that runs stores its new value in the shadow and, by its frame, in the device. -/
theorem exec_setter_runs {r : ShadowReg} {new : U16} (hr : Ready s) (hs : ShadowNarrow s)
    (hrow : setterTable s.shadow s.disableClearsAll i = some (r, new)) :
    ∃ t, exec i s = .next t ∧ t.shadow = s.shadow.set r new ∧ t.inputs = s.inputs ∧
      ∀ b, Memory.read t.dev b = if b = r.addr.toNat then some new else Memory.read s.dev b := by
  have hnew : Narrow new := narrow_of_setterTable hs hrow
  rw [exec_of_setterTable hrow, setter_ready hr.1 hr.2 (tooWide_eq_false.2 hnew)]
  exact ⟨_, rfl, rfl, rfl, read_dev_transact_writeFrameWord (setShadow r new s) hnew (addr_le_of_setterTable hrow)⟩

/-- Settles O37: the frame a setter sends carries the value it put in the shadow. -/
theorem setterMakesTheDeviceMatch : Obligations.SetterMakesTheDeviceMatch := by
  intro i r s hr hready hs
  obtain ⟨new, hrow⟩ := setterTable_of_targetOf hr s.shadow s.disableClearsAll
  obtain ⟨t, hexec, hshadow, -, hdev⟩ := exec_setter_runs hready hs hrow
  refine ⟨t, hexec, ?_⟩
  rw [hdev, if_pos rfl, hshadow, Shadow.get_set_same]

/-! ## The device's own clear -/

theorem step_selfClear {rest : List Input} (h : s.inputs = .stepSelfClear :: rest) :
    step s = .next (stepSelfClear { s with inputs := rest }) :=
  step_of_inputs h

theorem step_issue {rest : List Input} (h : s.inputs = .issue p :: rest) :
    step s = runPacket exec p { s with inputs := rest } :=
  step_of_inputs h

theorem runPacket_instr (h : decode p = .instr i) : runPacket exec p s = exec i s := by
  simp [runPacket, h]

/-- Setting bit 2 and clearing it again leaves the other bits as they were. -/
theorem or_four_and_not_four (v : U16) : (v ||| 0x0004) &&& ~~~0x0004 = v &&& ~~~0x0004 := by
  rw [BitVec.and_comm, BitVec.and_or_distrib_left]
  simp [BitVec.and_comm]

theorem and_not_four_ne_or_four (v : U16) : v &&& ~~~0x0004 ≠ v ||| 0x0004 := by
  intro h
  have hbit := congrArg (fun x : U16 => x.getLsbD 2) h
  simp at hbit

/-- Settles O50: the clear reaches only device register 0x0, so after a STEP the shadow keeps the bit the device loses. -/
theorem deviceClearsTheStepBit : Obligations.DeviceClearsTheStepBit := by
  refine ⟨fun s rest h => ?clear, fun s rest hready hs h => ?stepThenClear⟩
  case clear => exact ⟨_, step_selfClear h, rfl, read_devOnSelfClear s.dev⟩
  case stepThenClear =>
    have hdec : decode (.command 0x06000000) = .instr .step := by decide
    obtain ⟨t, hexec, hshadow, hinputs, hdev⟩ :=
      exec_setter_runs (i := .step) (s := { s with inputs := .stepSelfClear :: rest }) hready hs rfl
    have hctrl : t.shadow.ctrl = s.shadow.ctrl ||| 0x0004 := congrArg Shadow.ctrl hshadow
    have hread : Memory.read t.dev 0 = some (s.shadow.ctrl ||| 0x0004) := hdev 0
    have hcleared : Memory.read (devOnSelfClear t.dev) 0 = some (s.shadow.ctrl &&& ~~~0x0004) := by
      rw [read_devOnSelfClear, if_pos rfl, hread, Option.map_some, or_four_and_not_four]
    refine ⟨t, stepSelfClear { t with inputs := rest }, ?_, step_selfClear hinputs, hctrl, hread, rfl, hcleared, ?_⟩
    · rw [step_issue h, runPacket_instr hdec, hexec]
    · rintro ⟨hmirror, -⟩
      rw [stepSelfClear_dev, hcleared, stepSelfClear_shadow, hctrl, Option.some.injEq] at hmirror
      exact and_not_four_ne_or_four _ hmirror

end Sys2Proof.Proofs

namespace Sys2Proof.Proofs

/-! SUPPORT. Two runs from states that agree on the block's control part (20_memory.md R60, 10_state.md R31, R37). -/

open Sys2Proof.Machine Sys2Proof.Safety

variable {s s' : State} {respAgrees : Prop}

/-- Both answers are next states, with the same control part and, under `respAgrees`, the same response. -/
def AnswersAgree (respAgrees : Prop) (r r' : Result) : Prop :=
  ∃ t t', r = .next t ∧ r' = .next t' ∧ controlOf t = controlOf t' ∧ (respAgrees → t.resp = t'.resp)

theorem controlOf_eq_iff :
    controlOf s = controlOf s' ↔
      s.shadow = s'.shadow ∧ s.initialized = s'.initialized ∧ s.line = s'.line ∧ s.pc = s'.pc ∧ s.fault = s'.fault := by
  simp [controlOf]

/-! ## The shared operations -/

theorem controlOf_setShadow (r : ShadowReg) (v : U16) (h : controlOf s = controlOf s') :
    controlOf (setShadow r v s) = controlOf (setShadow r v s') := by
  obtain ⟨hx, rest⟩ := controlOf_eq_iff.1 h
  exact controlOf_eq_iff.2 ⟨by rw [setShadow_shadow, setShadow_shadow, hx], rest⟩

theorem answersAgree_next (h : controlOf s = controlOf s') (hresp : respAgrees → s.resp = s'.resp) :
    AnswersAgree respAgrees (.next s) (.next s') :=
  ⟨s, s', rfl, rfl, h, hresp⟩

theorem answersAgree_raiseFault (reason : FaultReason) (w : U32) (h : controlOf s = controlOf s')
    (hresp : respAgrees → s.resp = s'.resp) :
    AnswersAgree respAgrees (raiseFault reason w s) (raiseFault reason w s') := by
  obtain ⟨hx, hi, hl, hpc, hf⟩ := controlOf_eq_iff.1 h
  exact answersAgree_next (controlOf_eq_iff.2 ⟨hx, hi, hl, hpc, by rw [hpc]⟩) hresp

theorem answersAgree_complete {resp resp' : Option U16} (h : controlOf s = controlOf s')
    (hresp : respAgrees → resp = resp') : AnswersAgree respAgrees (complete resp s) (complete resp' s') := by
  obtain ⟨hx, hi, hl, hpc, hf⟩ := controlOf_eq_iff.1 h
  exact answersAgree_next (controlOf_eq_iff.2 ⟨hx, hi, hl, by rw [hpc], hf⟩) hresp

theorem answersAgree_whenRunning {run run' : Result} (h : controlOf s = controlOf s')
    (hresp : respAgrees → s.resp = s'.resp) (hrun : AnswersAgree respAgrees run run') :
    AnswersAgree respAgrees (whenRunning s run) (whenRunning s' run') := by
  obtain ⟨-, -, -, -, hf⟩ := controlOf_eq_iff.1 h
  rw [whenRunning, whenRunning, hf]
  split
  · exact answersAgree_next h hresp
  · exact hrun

theorem answersAgree_whenInitialized {run run' : Result} (w : U32) (h : controlOf s = controlOf s')
    (hresp : respAgrees → s.resp = s'.resp) (hrun : AnswersAgree respAgrees run run') :
    AnswersAgree respAgrees (whenInitialized w s run) (whenInitialized w s' run') := by
  obtain ⟨-, hi, -⟩ := controlOf_eq_iff.1 h
  refine answersAgree_whenRunning h hresp ?_
  rw [hi]
  split
  · exact hrun
  · exact answersAgree_raiseFault .notInitialized w h hresp

theorem answersAgree_memWrite {prepare : State → State} (w : U32) (a : U3) (v : U16) (h : controlOf s = controlOf s')
    (hprepare : controlOf (prepare s) = controlOf (prepare s')) (hresp : respAgrees → s.resp = s'.resp) :
    AnswersAgree respAgrees (memWrite w a v prepare s) (memWrite w a v prepare s') := by
  rw [memWrite, memWrite]
  split
  · exact answersAgree_raiseFault .writeValueTooWide w h hresp
  · exact answersAgree_complete hprepare fun _ => rfl

/-! ## The instructions -/

theorem answersAgree_setter {i : Instr} {r : ShadowReg} (hr : targetOf i = some r) (h : controlOf s = controlOf s')
    (hclears : s.disableClearsAll = s'.disableClearsAll) (hresp : respAgrees → s.resp = s'.resp) :
    AnswersAgree respAgrees (exec i s) (exec i s') := by
  obtain ⟨hx, -⟩ := controlOf_eq_iff.1 h
  obtain ⟨new, hrow⟩ := setterTable_of_targetOf hr s.shadow s.disableClearsAll
  rw [exec_of_setterTable hrow, exec_of_setterTable (hx ▸ hclears ▸ hrow)]
  exact answersAgree_whenInitialized _ h hresp (answersAgree_memWrite _ _ _ h (controlOf_setShadow r new h) hresp)

theorem answersAgree_init (l : U16) (h : controlOf s = controlOf s') (hresp : respAgrees → s.resp = s'.resp) :
    AnswersAgree respAgrees (exec (.init l) s) (exec (.init l) s') := by
  obtain ⟨hx, hi, hl, hpc, hf⟩ := controlOf_eq_iff.1 h
  refine answersAgree_whenRunning h hresp ?_
  rw [hi]
  split
  · exact answersAgree_raiseFault .alreadyInitialized _ h hresp
  · exact answersAgree_complete (controlOf_eq_iff.2 ⟨hx, rfl, rfl, hpc, hf⟩) fun _ => rfl

theorem answersAgree_readShadow (a : U3) (h : controlOf s = controlOf s') (hresp : respAgrees → s.resp = s'.resp) :
    AnswersAgree respAgrees (exec (.readShadow a) s) (exec (.readShadow a) s') := by
  obtain ⟨hx, -⟩ := controlOf_eq_iff.1 h
  refine answersAgree_whenRunning h hresp ?_
  cases shadowAt a with
  | none => exact answersAgree_raiseFault .illegalCommand _ h hresp
  | some r => exact answersAgree_complete h fun _ => by rw [hx]

/-- The word an exchange returns reaches the block at one place: the response of a READ. -/
theorem answersAgree_exec (i : Instr) (h : controlOf s = controlOf s')
    (hclears : s.disableClearsAll = s'.disableClearsAll) :
    AnswersAgree (s.resp = s'.resp ∧ ∀ a, i ≠ .read a) (exec i s) (exec i s') := by
  have hresp : ∀ {q : Prop}, s.resp = s'.resp ∧ q → s.resp = s'.resp := And.left
  cases i
  case init l => exact answersAgree_init l h hresp
  case readShadow a => exact answersAgree_readShadow a h hresp
  case read a =>
    exact answersAgree_whenInitialized _ h hresp (answersAgree_complete h fun ⟨_, hread⟩ => absurd rfl (hread a))
  case readFrame a => exact answersAgree_whenInitialized _ h hresp (answersAgree_next h hresp)
  case writeFrame a d => exact answersAgree_whenInitialized _ h hresp (answersAgree_next h hresp)
  case write a v => exact answersAgree_whenInitialized _ h hresp (answersAgree_memWrite _ a v h h hresp)
  all_goals exact answersAgree_setter rfl h hclears hresp

/-- Settles O53: every operation an instruction is made of answers alike on states with the same control part. -/
theorem busReachesOnlyTheResponse : Obligations.BusReachesOnlyTheResponse := by
  intro i s s' h hclears
  obtain ⟨t, t', ht, ht', hcontrol, hresp⟩ := answersAgree_exec i h hclears
  exact ⟨t, t', ht, ht', hcontrol, fun hr hread => hresp ⟨hr, hread⟩⟩

end Sys2Proof.Proofs

namespace Sys2Proof.Proofs

/-! SUPPORT. When the device's registers 0x0 to 0x4 hold what the shadows hold (20_memory.md R71). -/

open Sys2Proof.Machine Sys2Proof.Safety

variable {i : Instr} {p : Packet} {s t : State} {agree : Option U16 → U16 → Prop}

/-! ## The mirror with CTRL left open -/

/-- `MirrorInv` and `MirrorButStep` in one form: they differ only in what they ask of the device's CTRL register and its
shadow, which is `agree`. -/
def MirrorWith (agree : Option U16 → U16 → Prop) (s : State) : Prop :=
  agree (Memory.read s.dev 0) s.shadow.ctrl ∧
    Memory.read s.dev 1 = some s.shadow.torque ∧ Memory.read s.dev 2 = some s.shadow.off ∧
    Memory.read s.dev 3 = some s.shadow.blank ∧ Memory.read s.dev 4 = some s.shadow.decay ∧ s.pendingLatch = none

/-- Equal, with no STEP bit for the device to clear. -/
def EqualStepClear (v : Option U16) (x : U16) : Prop := v = some x ∧ x.getLsbD 2 = false

/-- Equal, but that the device may have cleared its STEP bit. -/
def EqualButStep (v : Option U16) (x : U16) : Prop := v = some x ∨ v = some (x &&& ~~~0x0004)

theorem mirrorInv_iff : MirrorInv s ↔ MirrorWith EqualStepClear s := by
  simp only [MirrorInv, Mirrored, MirrorWith, EqualStepClear]
  tauto

theorem mirrorButStep_iff : MirrorButStep s ↔ MirrorWith EqualButStep s := Iff.rfl

/-! ## What keeps it -/

/-- An instruction that is no raw write leaves shadow and device as they are, or puts its new value in both. -/
theorem exec_writes_both_or_neither (hraw : isRawWrite i = false) (hlatch : s.pendingLatch = none)
    (h : exec i s = .next t) :
    t.pendingLatch = none ∧
    (t.shadow = s.shadow ∧ t.dev = s.dev ∨
      ∃ r new, setterTable s.shadow s.disableClearsAll i = some (r, new) ∧ t.shadow = s.shadow.set r new ∧
        ∀ b, Memory.read t.dev b = if b = r.addr.toNat then some new else Memory.read s.dev b) := by
  rcases exec_eq_next h with ⟨_, rfl⟩ | ⟨_, _, rfl⟩ | ⟨_, _, _, _, rfl⟩ | ⟨_, _, _, _, _, rfl⟩ | ⟨_, _, a, _, rfl⟩ |
    ⟨_, _, a, _, rfl⟩ | ⟨_, _, _, _, rfl, _⟩ | ⟨_, _, _, _, rfl, _⟩ | ⟨_, _, r, new, hrow, hnew, rfl⟩
  · exact ⟨hlatch, .inl ⟨rfl, rfl⟩⟩
  · exact ⟨hlatch, .inl ⟨rfl, rfl⟩⟩
  · exact ⟨rfl, .inl ⟨by simp, by simp [observe, hlatch]⟩⟩
  · exact ⟨hlatch, .inl ⟨rfl, rfl⟩⟩
  · exact ⟨rfl, .inl ⟨rfl, dev_transact_readFrameWord a hlatch⟩⟩
  · exact ⟨rfl, .inl ⟨rfl, dev_transact_readFrameWord a hlatch⟩⟩
  · cases hraw
  · cases hraw
  · exact ⟨rfl, .inr ⟨r, new, hrow, rfl,
      read_dev_transact_writeFrameWord (setShadow r new s) hnew (addr_le_of_setterTable hrow)⟩⟩

/-- A value put in a shadow and in its device register keeps them equal, and the other registers as they were. -/
theorem mirrorWith_set {r : ShadowReg} {new : U16} (hs : MirrorWith agree s) (hlatch : t.pendingLatch = none)
    (hr : r = .ctrl ∨ r = .torque ∨ r = .off) (hctrl : r = .ctrl → agree (some new) new)
    (hshadow : t.shadow = s.shadow.set r new)
    (hdev : ∀ b, Memory.read t.dev b = if b = r.addr.toNat then some new else Memory.read s.dev b) :
    MirrorWith agree t := by
  obtain ⟨h0, h1, h2, h3, h4, -⟩ := hs
  simp only [MirrorWith, hdev, hshadow]
  rcases hr with rfl | rfl | rfl
  · exact ⟨hctrl rfl, h1, h2, h3, h4, hlatch⟩
  · exact ⟨h0, rfl, h2, h3, h4, hlatch⟩
  · exact ⟨h0, h1, rfl, h3, h4, hlatch⟩

theorem exec_keeps_mirrorWith (hs : MirrorWith agree s) (hraw : isRawWrite i = false)
    (hctrl : ∀ new, setterTable s.shadow s.disableClearsAll i = some (.ctrl, new) → agree (some new) new)
    (h : exec i s = .next t) : MirrorWith agree t := by
  have ⟨h0, h1, h2, h3, h4, hlatch⟩ := hs
  obtain ⟨hlatch', ⟨hshadow, hdev⟩ | ⟨r, new, hrow, hshadow, hdev⟩⟩ := exec_writes_both_or_neither hraw hlatch h
  · rw [MirrorWith, hshadow, hdev]
    exact ⟨h0, h1, h2, h3, h4, hlatch'⟩
  · exact mirrorWith_set hs hlatch' (register_of_setterTable hrow) (fun hr => hctrl new (hr ▸ hrow)) hshadow hdev

/-- Only the device's CTRL register moves. -/
theorem stepSelfClear_keeps_mirrorWith (hclear : ∀ v x, agree v x → agree (v.map fun w => w &&& ~~~0x0004) x)
    (hs : MirrorWith agree s) : MirrorWith agree (stepSelfClear s) := by
  obtain ⟨h0, rest⟩ := hs
  simp only [MirrorWith, stepSelfClear_dev, read_devOnSelfClear]
  exact ⟨hclear _ _ h0, rest⟩

/-- Device and shadow have the same defaults (10_state.md R39, 20_memory.md R61). -/
theorem mirrorWith_defaults (hdefault : agree (some Shadow.reset.ctrl) Shadow.reset.ctrl) (hdev : s.dev = devDefaults)
    (hshadow : s.shadow = Shadow.reset) (hlatch : s.pendingLatch = none) : MirrorWith agree s := by
  rw [MirrorWith, hdev, hshadow]
  exact ⟨hdefault, rfl, rfl, rfl, rfl, hlatch⟩

/-- A step on an input that parts no registers keeps the mirror, where `agree` allows the defaults, the device's clear, and
every value a command of that input sends to CTRL. -/
theorem step_keeps_mirrorWith (hdefault : agree (some Shadow.reset.ctrl) Shadow.reset.ctrl)
    (hclear : ∀ v x, agree v x → agree (v.map fun w => w &&& ~~~0x0004) x) (hs : MirrorWith agree s)
    (hparts : ∀ inp rest, s.inputs = inp :: rest → partsRegisters inp = false)
    (hctrl : ∀ p rest i new, s.inputs = .issue p :: rest → decode p = .instr i →
      setterTable s.shadow s.disableClearsAll i = some (.ctrl, new) → agree (some new) new)
    (h : step s = .next t) : MirrorWith agree t := by
  rcases step_eq_next h with ⟨_, rfl⟩ | ⟨p, rest, hin, h⟩ | ⟨_, _, _, _, hin, _⟩ | ⟨_, hin, _⟩ | ⟨_, _, rfl⟩ |
    ⟨_, hin, _⟩ | ⟨rest, _, rfl⟩
  · exact hs
  · rcases runPacket_by_decode h with ⟨i, hdec, h⟩ | rfl | ⟨_, rfl⟩
    · have hraw : isRawWrite i = false := by simpa [partsRegisters, packetWritesRaw, hdec] using hparts _ _ hin
      exact exec_keeps_mirrorWith (s := { s with inputs := rest }) hs hraw (fun new => hctrl p rest i new hin hdec) h
    · exact hs
    · exact hs
  · exact nomatch hparts _ _ hin
  · exact nomatch hparts _ _ hin
  · exact mirrorWith_defaults hdefault rfl rfl rfl
  · exact nomatch hparts _ _ hin
  · exact stepSelfClear_keeps_mirrorWith (s := { s with inputs := rest }) hclear hs

/-! ## CTRL's STEP bit -/

/-- No setter but STEP sets bit 2 of CTRL (70_reset_and_hazards.md R242). -/
theorem setterTable_keeps_step_clear {x : Shadow} {c : Bool} {new : U16} (hbit : x.ctrl.getLsbD 2 = false)
    (hi : i ≠ .step) (hrow : setterTable x c i = some (.ctrl, new)) : new.getLsbD 2 = false := by
  cases i <;> simp only [setterTable, Option.some.injEq, Prod.mk.injEq, reduceCtorEq, true_and, false_and] at hrow <;>
    subst hrow
  case step => exact absurd rfl hi
  case disable =>
    cases c with
    | false => simpa using hbit
    | true => simp
  all_goals simpa using hbit

theorem and_not_four_of_clear {x : U16} (hbit : x.getLsbD 2 = false) : x &&& ~~~0x0004 = x := by
  apply BitVec.eq_of_getLsbD_eq
  intro k hk
  rw [show (0x0004 : U16) = BitVec.twoPow 16 2 by decide, BitVec.getLsbD_and, BitVec.getLsbD_not, BitVec.getLsbD_twoPow]
  by_cases h2 : k = 2
  · rw [h2, hbit, Bool.false_and]
  · simp [hk, Ne.symm h2]

theorem equalStepClear_clear (v : Option U16) (x : U16) (h : EqualStepClear v x) :
    EqualStepClear (v.map fun w => w &&& ~~~0x0004) x := by
  obtain ⟨rfl, hbit⟩ := h
  exact ⟨by rw [Option.map_some, and_not_four_of_clear hbit], hbit⟩

theorem equalButStep_clear (v : Option U16) (x : U16) (h : EqualButStep v x) :
    EqualButStep (v.map fun w => w &&& ~~~0x0004) x := by
  rcases h with rfl | rfl
  · exact .inr rfl
  · exact .inr (by rw [Option.map_some, BitVec.and_assoc, BitVec.and_self])

/-- Settles O38: of the inputs not excluded only a setter, the device's clear and a power cycle touch shadow or device. -/
theorem mirrorIsKeptWithoutRawWrites : Obligations.MirrorIsKeptWithoutRawWrites := by
  refine ⟨fun s t hs hparts h => ?equal, fun s t hs hparts h => ?butStep, fun s rest hin hidle hdev hlatch => ?reset⟩
  case equal =>
    have hone : ∀ inp rest, s.inputs = inp :: rest → partsRegisters inp = false ∧ partsStepBit inp = false :=
      fun inp rest hin => Bool.or_eq_false_iff.1 (hparts inp rest hin)
    have hbit : s.shadow.ctrl.getLsbD 2 = false := hs.2.1
    refine mirrorInv_iff.2 (step_keeps_mirrorWith ⟨rfl, rfl⟩ equalStepClear_clear (mirrorInv_iff.1 hs)
      (fun inp rest hin => (hone inp rest hin).1) (fun p rest i new hin hdec hrow => ⟨rfl, ?_⟩) h)
    have hstep : i ≠ .step := by
      rintro rfl
      simpa [partsStepBit, packetSteps, hdec] using (hone _ _ hin).2
    exact setterTable_keeps_step_clear hbit hstep hrow
  case butStep =>
    exact step_keeps_mirrorWith (.inl rfl) equalButStep_clear hs hparts (fun _ _ _ _ _ _ _ => .inl rfl) h
  case reset =>
    refine ⟨_, step_blockReset hin, mirrorInv_iff.2 (mirrorWith_defaults ⟨rfl, rfl⟩ ?_ rfl ?_)⟩
    · simp [hidle, devOnCut, hdev]
    · simp [hidle, latchOnCut, hlatch]

end Sys2Proof.Proofs

namespace Sys2Proof.Proofs

/-! SUPPORT. The decoder inverts the encoder and answers nothing else (30_encoding.md R80 to R84, R90, R91, R94). -/

open Sys2Proof.Machine Sys2Proof.Safety

variable {i j : Instr} {opc : U8} {a : U3} {d : U16}

/-! ## The operand forms (R81, R83) -/

theorem ite_eq_instr {c : Prop} [Decidable c] {why : IllegalReason} :
    (if c then Decoded.instr i else .illegal why) = .instr j ↔ c ∧ i = j := by
  split <;> simp [*]

theorem ite_illegal {c : Prop} [Decidable c] {why : IllegalReason} :
    (∃ r, (if c then Decoded.instr i else .illegal why) = .illegal r) ↔ ¬ c := by
  split <;> simp [*]

theorem bareCommand_eq_instr : bareCommand a d i = .instr j ↔ (a = 0 ∧ d = 0) ∧ i = j := ite_eq_instr

theorem wordCommand_eq_instr : wordCommand a i = .instr j ↔ a = 0 ∧ i = j := ite_eq_instr

theorem byteCommand_eq_instr : byteCommand a d i = .instr j ↔ (a = 0 ∧ d.extractLsb' 8 8 = 0) ∧ i = j :=
  ite_eq_instr

theorem decodeRead_eq_instr : decodeRead a d = .instr j ↔ d = 0 ∧ .read a = j := ite_eq_instr

theorem decodeReadShadow_eq_instr :
    decodeReadShadow a d = .instr j ↔ d = 0 ∧ hasShadow a = true ∧ .readShadow a = j := by
  by_cases hd : d = 0#16 <;> simp [decodeReadShadow, hd, ite_eq_instr]

theorem bareCommand_illegal : (∃ why, bareCommand a d i = .illegal why) ↔ a ≠ 0 ∨ d ≠ 0 :=
  ite_illegal.trans Decidable.not_and_iff_not_or_not

theorem wordCommand_illegal : (∃ why, wordCommand a i = .illegal why) ↔ a ≠ 0 := ite_illegal

theorem byteCommand_illegal : (∃ why, byteCommand a d i = .illegal why) ↔ a ≠ 0 ∨ d.extractLsb' 8 8 ≠ 0 :=
  ite_illegal.trans Decidable.not_and_iff_not_or_not

theorem decodeRead_illegal : (∃ why, decodeRead a d = .illegal why) ↔ d ≠ 0 := ite_illegal

theorem hasShadow_eq_false : hasShadow a = false ↔ a = 5 ∨ a = 6 := by
  simp [hasShadow, Decidable.or_iff_not_imp_left]

theorem decodeReadShadow_illegal : (∃ why, decodeReadShadow a d = .illegal why) ↔ d ≠ 0 ∨ a = 5 ∨ a = 6 := by
  rw [← hasShadow_eq_false]
  by_cases hd : d = 0#16 <;> simp [decodeReadShadow, hd, ite_illegal]

theorem byteOperand_extract (v : U8) : (byteOperand v).extractLsb' 0 8 = v := by
  apply BitVec.eq_of_getLsbD_eq
  intro k hk
  simp only [byteOperand, BitVec.getLsbD_extractLsb', BitVec.getLsbD_append]
  simp [hk]

theorem byteOperand_high (v : U8) : (byteOperand v).extractLsb' 8 8 = 0 := by
  apply BitVec.eq_of_getLsbD_eq
  intro k hk
  simp only [byteOperand, BitVec.getLsbD_extractLsb', BitVec.getLsbD_append]
  simp

/-- A `D` whose high byte is 0 is its low byte as an operand (R83). -/
theorem byteOperand_of_high (h : d.extractLsb' 8 8 = 0) : byteOperand (d.extractLsb' 0 8) = d := by
  have hjoin : d.extractLsb' 8 8 ++ d.extractLsb' 0 8 = d.extractLsb' 0 16 :=
    BitVec.extractLsb'_append_extractLsb'_eq_extractLsb' rfl
  rw [h, BitVec.extractLsb'_eq_self] at hjoin
  exact hjoin

/-! ## The opcodes (R81) -/

/-- The sixteen opcodes by mnemonic, and the rest, which are reserved. -/
theorem opcode_cases {motive : U8 → Prop} (init : motive 0x00) (read : motive 0x01) (write : motive 0x02)
    (enable : motive 0x03) (disable : motive 0x04) (flipDir : motive 0x05) (step : motive 0x06)
    (setStepMode : motive 0x07) (setExtStall : motive 0x08) (setIntStall : motive 0x09) (setGain : motive 0x0A)
    (setDeadTime : motive 0x0B) (setTorque : motive 0x0C) (setOffTime : motive 0x0D) (setPwmMode : motive 0x0E)
    (readShadow : motive 0x0F) (reserved : ∀ opc : U8, 0x10 ≤ opc.toNat → motive opc) (opc : U8) : motive opc := by
  by_cases hopc : 0x10 ≤ opc.toNat
  · exact reserved opc hopc
  · obtain ⟨n, hn, rfl⟩ : ∃ n, n < 0x10 ∧ opc = BitVec.ofNat 8 n := ⟨opc.toNat, by omega, by simp⟩
    clear hopc
    interval_cases n <;> assumption

theorem decodeOpcode_reserved (a : U3) (d : U16) (h : 0x10 ≤ opc.toNat) :
    decodeOpcode opc a d = .illegal .reservedOpcode := by
  rw [decodeOpcode]
  split
  case h_17 => rfl
  all_goals omega

/-- WRITE is the one command with no operand field that must be 0. -/
theorem decodeOpcode_write (a : U3) (d : U16) : decodeOpcode 0x02 a d = .instr (.write a d) := rfl

/-- What the fields of a command word decode to is the instruction that is encoded as those fields. -/
theorem encode_of_decodeOpcode (h : decodeOpcode opc a d = .instr i) :
    encode i = .command (commandWord opc a d) ∧ i.wellFormed = true := by
  cases opc using opcode_cases with
  | init | setStepMode | setGain | setDeadTime | setPwmMode =>
    obtain ⟨rfl, rfl⟩ := wordCommand_eq_instr.1 h
    exact ⟨rfl, rfl⟩
  | enable | disable | flipDir | step | setExtStall | setIntStall =>
    obtain ⟨⟨rfl, rfl⟩, rfl⟩ := bareCommand_eq_instr.1 h
    exact ⟨rfl, rfl⟩
  | setTorque | setOffTime =>
    obtain ⟨⟨rfl, hd⟩, rfl⟩ := byteCommand_eq_instr.1 h
    exact ⟨by rw [encode, byteOperand_of_high hd], rfl⟩
  | read =>
    obtain ⟨rfl, rfl⟩ := decodeRead_eq_instr.1 h
    exact ⟨rfl, rfl⟩
  | write =>
    cases (decodeOpcode_write a d).symm.trans h
    exact ⟨rfl, rfl⟩
  | readShadow =>
    obtain ⟨rfl, hshadow, rfl⟩ := decodeReadShadow_eq_instr.1 h
    exact ⟨rfl, hshadow⟩
  | reserved opc hopc =>
    rw [decodeOpcode_reserved a d hopc] at h
    cases h

/-! ## Command words -/

theorem decodeCommand_eq_instr {w : U32} :
    decodeCommand w = .instr i ↔ rsvField w = 0 ∧ decodeOpcode (opcField w) (aField w) (dField w) = .instr i := by
  by_cases hrsv : rsvField w = 0#5 <;> simp [decodeCommand, hrsv]

theorem decode_commandWord (opc : U8) (a : U3) (d : U16) :
    decode (.command (commandWord opc a d)) = decodeOpcode opc a d := by
  rw [decode, decodeCommand, rsvField_commandWord, opcField_commandWord, aField_commandWord, dField_commandWord]
  rfl

theorem encode_of_decodeCommand {w : U32} (h : decodeCommand w = .instr i) :
    encode i = .command w ∧ i.wellFormed = true := by
  obtain ⟨hrsv, h⟩ := decodeCommand_eq_instr.1 h
  obtain ⟨henc, hwf⟩ := encode_of_decodeOpcode h
  rw [commandWord_of_fields w hrsv] at henc
  exact ⟨henc, hwf⟩

/-! ## Frames (R90, R91, R94) -/

/-- A frame is its direction bit, its address and its data side by side. -/
theorem frame_eq_append (f : U16) : f.extractLsb' 15 1 ++ frameAddr f ++ frameData f = f := by
  have hhead : f.extractLsb' 15 1 ++ f.extractLsb' 12 3 = f.extractLsb' 12 4 :=
    BitVec.extractLsb'_append_extractLsb'_eq_extractLsb' rfl
  have hframe : f.extractLsb' 12 4 ++ f.extractLsb' 0 12 = f.extractLsb' 0 16 :=
    BitVec.extractLsb'_append_extractLsb'_eq_extractLsb' rfl
  rw [frameAddr, frameData, hhead, hframe, BitVec.extractLsb'_eq_self]

theorem directionBit_eq (f : U16) : f.extractLsb' 15 1 = BitVec.ofBool (frameIsRead f) := by
  apply BitVec.eq_of_getLsbD_eq
  intro k hk
  obtain rfl : k = 0 := by omega
  simp [frameIsRead]

theorem readFrameWord_of_fields {f : U16} (hread : frameIsRead f = true) (hdata : frameData f = 0) :
    readFrameWord (frameAddr f) = f := by
  conv_rhs => rw [← frame_eq_append f, directionBit_eq, hread, hdata]
  exact readFrameWord_eq_append _

theorem writeFrameWord_of_fields {f : U16} (hwrite : frameIsRead f = false) :
    writeFrameWord (frameAddr f) ((frameData f).setWidth 16) = f := by
  conv_rhs => rw [← frame_eq_append f, directionBit_eq, hwrite]
  rw [writeFrameWord_eq_append _ _ (narrow_setWidth _), extract_setWidth]
  rfl

theorem decodeFrame_readFrameWord (a : U3) : decodeFrame (readFrameWord a) = .instr (.readFrame a) := by
  simp [decodeFrame, frameIsRead_readFrameWord, frameData_readFrameWord, frameAddr_readFrameWord]

theorem decodeFrame_writeFrameWord (a : U3) (d : U12) :
    decodeFrame (writeFrameWord a (d.setWidth 16)) = .instr (.writeFrame a d) := by
  have hd := narrow_setWidth d
  simp [decodeFrame, frameIsRead_writeFrameWord a _ hd, frameAddr_writeFrameWord a _ hd,
    frameData_writeFrameWord a _ hd, extract_setWidth]

theorem encode_of_decodeFrame {f : U16} (h : decodeFrame f = .instr i) :
    encode i = .frame f ∧ i.wellFormed = true := by
  rw [decodeFrame] at h
  split at h
  · next hread =>
    obtain ⟨hdata, rfl⟩ := ite_eq_instr.1 h
    exact ⟨congrArg Packet.frame (readFrameWord_of_fields hread hdata), rfl⟩
  · next hwrite =>
    cases h
    exact ⟨congrArg Packet.frame (writeFrameWord_of_fields (Bool.not_eq_true _ ▸ hwrite)), rfl⟩

/-! ## The round trips -/

theorem decode_encode (h : i.wellFormed = true) : decode (encode i) = .instr i := by
  cases i with
  | setTorque v | setOffTime v =>
    refine (decode_commandWord _ _ _).trans (byteCommand_eq_instr.2 ⟨⟨rfl, byteOperand_high v⟩, ?_⟩)
    rw [byteOperand_extract]
  | readShadow a => exact (decode_commandWord _ _ _).trans (decodeReadShadow_eq_instr.2 ⟨rfl, h, rfl⟩)
  | readFrame a => exact decodeFrame_readFrameWord a
  | writeFrame a d => exact decodeFrame_writeFrameWord a d
  | _ => exact decode_commandWord _ _ _

/-- Settles O6: each field of an encoded word reads as it was written, and its opcode's row gives the instruction back. -/
theorem decodeOfEncode : Obligations.DecodeOfEncode :=
  fun _ => decode_encode

/-- Settles O7: a word that decodes has no bit outside the fields its instruction is encoded by. -/
theorem encodeOfDecode : Obligations.EncodeOfDecode := by
  intro p i h
  cases p with
  | command w => exact encode_of_decodeCommand h
  | frame f => exact encode_of_decodeFrame h

/-- Settles O5: each word is the encoding of its instruction. -/
theorem specWordsDecode : Obligations.SpecWordsDecode :=
  ⟨decode_encode (i := .init 5) rfl, decode_encode (i := .read 7) rfl, decode_encode (i := .write 3 0x0080) rfl,
    decode_encode (i := .enable) rfl, decode_encode (i := .setStepMode 256) rfl,
    decode_encode (i := .setDeadTime 850) rfl, decode_encode (i := .setTorque 0x80) rfl,
    decode_encode (i := .readShadow 0) rfl, decode_encode (i := .readFrame 7) rfl,
    decode_encode (i := .writeFrame 3 0x080) rfl⟩

/-! ## Illegal words (R84) -/

/-- R84's list but for the reserved field, over the other three fields of a word. -/
def IllegalFields (opc : U8) (a : U3) (d : U16) : Prop :=
  0x10 ≤ opc.toNat ∨ (aMustBeZero opc = true ∧ a ≠ 0) ∨ (dMustBeZero opc = true ∧ d ≠ 0) ∨
    (dHighMustBeZero opc = true ∧ d.extractLsb' 8 8 ≠ 0) ∨ (opc = 0x0F ∧ (a = 5 ∨ a = 6))

theorem illegalWord_iff (w : U32) :
    IllegalWord w ↔ rsvField w ≠ 0 ∨ IllegalFields (opcField w) (aField w) (dField w) := by
  have hhigh : (dField w).extractLsb' 8 8 = w.extractLsb' 8 8 := by
    apply BitVec.eq_of_getLsbD_eq
    intro k hk
    simp [dField, hk]
  rw [IllegalFields, hhigh]
  exact Iff.rfl

theorem decodeOpcode_illegal :
    (∃ why, decodeOpcode opc a d = .illegal why) ↔ IllegalFields opc a d := by
  cases opc using opcode_cases
  case reserved hopc => exact ⟨fun _ => .inl hopc, fun _ => ⟨_, decodeOpcode_reserved a d hopc⟩⟩
  case' init | setStepMode | setGain | setDeadTime | setPwmMode => refine wordCommand_illegal.trans ?_
  case' enable | disable | flipDir | step | setExtStall | setIntStall => refine bareCommand_illegal.trans ?_
  case' setTorque | setOffTime => refine byteCommand_illegal.trans ?_
  case' read => refine decodeRead_illegal.trans ?_
  case' write => rw [decodeOpcode_write]
  case' readShadow => refine decodeReadShadow_illegal.trans ?_
  all_goals simp [IllegalFields, aMustBeZero, dMustBeZero, dHighMustBeZero]

theorem decode_command_illegal (w : U32) : (∃ why, decode (.command w) = .illegal why) ↔ IllegalWord w := by
  rw [illegalWord_iff, ← decodeOpcode_illegal, decode, decodeCommand]
  by_cases hrsv : rsvField w = 0#5 <;> simp [hrsv]

/-- A word that does not decode faults as IllegalCommand (R110, R201). -/
theorem issue_illegal {w : U32} {s : State} {why : IllegalReason} (hdec : decode (.command w) = .illegal why)
    (hf : s.fault = none) : issue w s = .next (afterFault .illegalCommand w s) := by
  rw [issue, step_present, runPacket, hdec]
  exact whenRunning_running hf

/-- Settles O8: opcode by opcode, the operand form refuses exactly what R84 lists, and no form answers anything else. -/
theorem illegalWordsAreExactlyTheListed : Obligations.IllegalWordsAreExactlyTheListed := by
  refine ⟨decode_command_illegal, fun w s hw hf => ?_⟩
  obtain ⟨why, hdec⟩ := (decode_command_illegal w).2 hw
  exact issue_illegal hdec hf

/-! ## The frames (R90 to R93) -/

theorem and_bit15 (f : U16) : f &&& 0x8000 = if f.getLsbD 15 then 0x8000 else 0 :=
  BitVec.and_twoPow f 15

/-- A frame of either pattern is none of the words of R93. -/
theorem data_eq_zero_of_legalFrame {f : U16} (hlegal : legalFrame f = true) (hread : f.getLsbD 15 = true) :
    f.extractLsb' 0 12 = 0 := by
  simp only [legalFrame, Bool.or_eq_true, beq_iff_eq, and_bit15, hread] at hlegal
  rcases hlegal with hmask | hbit
  · have hdata := congrArg (BitVec.extractLsb' 0 12) hmask
    rw [BitVec.extractLsb'_and] at hdata
    exact (BitVec.and_allOnes (x := f.extractLsb' 0 12)).symm.trans hdata
  · exact absurd hbit (by decide)

/-- Settles O11: every frame an instruction sends is legal, and a legal frame with bit 15 set has no data. -/
theorem everyFrameSentIsLegal : Obligations.EveryFrameSentIsLegal := by
  refine ⟨fun w hread hdata => ⟨?notRead, ?notWrite⟩, fun i s t h => ?sent⟩
  case notRead =>
    rintro a rfl
    exact hdata (data_eq_zero_of_legalFrame (legalFrame_readFrameWord a) hread)
  case notWrite =>
    rintro a v hv rfl
    exact hdata (data_eq_zero_of_legalFrame (legalFrame_writeFrameWord a hv) hread)
  case sent =>
    rcases exec_by_bus_action h with ⟨_, rfl⟩ | ⟨_, _, rfl⟩ | ⟨_, _, rfl⟩ | ⟨_, _, l, rfl⟩ |
      ⟨_, _, out, _, _, _, hlegal, rfl⟩
    · exact ⟨[], (List.append_nil _).symm, nofun⟩
    · exact ⟨[], (List.append_nil _).symm, nofun⟩
    · exact ⟨[], (List.append_nil _).symm, nofun⟩
    · exact ⟨[.bind l, .csDeassert], by simp, by simp⟩
    · refine ⟨_, transact_trace s out, fun out' inn hmem ⟨hread, hdata⟩ => ?_⟩
      obtain ⟨rfl, -⟩ : out' = out ∧ inn = nextDraw s := by simpa using hmem
      exact hdata (data_eq_zero_of_legalFrame hlegal hread)

theorem readFrameWord_pattern : ∀ a : U3,
    readFrameWord a &&& 0x8FFF = 0x8000 ∧ (readFrameWord a).getLsbD 12 = a.getLsbD 0 := by decide

/-- Settles O9: bit 12 is the lowest bit of the address, which the 0x8FFF mask leaves out. -/
theorem readFrameCarriesTheAddress : Obligations.ReadFrameCarriesTheAddress :=
  ⟨fun a => ⟨rfl, readFrameWord_eq_append a, readFrameWord_pattern a⟩, by decide⟩

theorem exec_write_tooWide {v : U16} {s t : State} (hv : ¬ Narrow v) (h : exec (.write a v) s = .next t) :
    ∃ f, t = { s with fault := f } := by
  rw [exec_write] at h
  rcases whenInitialized_keeps_or_runs h with kept | h
  · exact kept
  · rw [memWrite, if_pos (tooWide_eq_true.2 hv)] at h
    exact ⟨_, raiseFault_eq_next h⟩

/-- Settles O10: a value that fits leaves bit 15 to the direction; a wider one faults before the transaction. -/
theorem writeFrameCarriesAddressAndValue : Obligations.WriteFrameCarriesAddressAndValue := by
  refine ⟨fun a v hv => ⟨rfl, writeFrameWord_eq_append a v hv, ?_⟩, fun a v s t hv h => ?_⟩
  · have hbit : (writeFrameWord a v).getLsbD 15 = false := frameIsRead_writeFrameWord a v hv
    rw [and_bit15, hbit]
    rfl
  · obtain ⟨_, rfl⟩ := exec_write_tooWide hv h
    rfl

end Sys2Proof.Proofs

namespace Sys2Proof.Proofs

/-! SUPPORT. The assembler form: the instruction and the word of every line (30_encoding.md R95, R81). -/

open Sys2Proof.Machine Sys2Proof.Safety

variable {i : Instr} {m : String} {ops : List AsmOperand} {opc a d : Nat}

/-! ## The word of a line -/

/-- Fields that fit are put side by side. -/
theorem lineWord_eq_commandWord (hopc : opc < 0x100) (ha : a < 8) (hd : d < 0x10000) :
    lineWord opc a d = commandWord (BitVec.ofNat 8 opc) (BitVec.ofNat 3 a) (BitVec.ofNat 16 d) := by
  apply BitVec.eq_of_toNat_eq
  have hshift : opc <<< 24 = ((opc <<< 5) <<< 3) <<< 16 := by simp [← Nat.shiftLeft_add]
  simp only [lineWord, commandWord, BitVec.toNat_or, BitVec.toNat_shiftLeft, BitVec.toNat_append, BitVec.toNat_ofNat]
  rw [Nat.mod_eq_of_lt (show opc < 2 ^ 32 by omega), Nat.mod_eq_of_lt (show a < 2 ^ 32 by omega),
    Nat.mod_eq_of_lt (show d < 2 ^ 32 by omega), Nat.mod_eq_of_lt (show opc < 2 ^ 8 by omega),
    Nat.mod_eq_of_lt (show a < 2 ^ 3 by omega), Nat.mod_eq_of_lt (show d < 2 ^ 16 by omega),
    Nat.mod_eq_of_lt (show opc <<< 24 < 2 ^ 32 by rw [Nat.shiftLeft_eq]; omega),
    Nat.mod_eq_of_lt (show a <<< 16 < 2 ^ 32 by rw [Nat.shiftLeft_eq]; omega), hshift]
  simp [Nat.shiftLeft_or_distrib]

/-- A byte operand is the `D` field of its number (R83). -/
theorem byteOperand_ofNat (hd : d < 0x100) : byteOperand (BitVec.ofNat 8 d) = BitVec.ofNat 16 d := by
  apply BitVec.eq_of_toNat_eq
  rw [byteOperand, BitVec.toNat_append]
  simp [Nat.mod_eq_of_lt hd, Nat.mod_eq_of_lt (show d < 65536 by omega)]

/-- A line whose instruction is encoded by the fields of the line. -/
theorem assemblesTo_of_encode (hasm : assemble m ops = some i) (hopc : opc < 0x100) (ha : a < 8) (hd : d < 0x10000)
    (henc : encode i = .command (commandWord (BitVec.ofNat 8 opc) (BitVec.ofNat 3 a) (BitVec.ofNat 16 d))) :
    AssemblesTo m ops i opc a d :=
  ⟨hasm, by rw [henc, lineWord_eq_commandWord hopc ha hd]⟩

/-! ## The forms with no operand and with one -/

theorem assemblesTo_bare (hopc : opc < 0x100) (hasm : assemble m [] = some i)
    (henc : encode i = .command (commandWord (BitVec.ofNat 8 opc) 0 0)) : AssemblesTo m [] i opc 0 0 :=
  assemblesTo_of_encode hasm hopc (by omega) (by omega) henc

/-- A form with a number in `D`, from what it answers on numbers and on names. -/
theorem valueForm_of_assemble {max : Nat} {ofNumber : Nat → Instr} (hopc : opc < 0x100) (hmax : max ≤ 0xFFFF)
    (hnum : ∀ n, assemble m [.num n] = if n ≤ max then some (ofNumber n) else none)
    (hname : ∀ r, assemble m [.reg r] = none)
    (henc : ∀ n ≤ max, encode (ofNumber n) = .command (commandWord (BitVec.ofNat 8 opc) 0 (BitVec.ofNat 16 n))) :
    ValueForm m opc max ofNumber := by
  refine ⟨fun n hn => ?_, fun n hn => by rw [hnum, if_neg (by omega)], hname⟩
  exact assemblesTo_of_encode (by rw [hnum, if_pos hn]) hopc (by omega) (by omega) (henc n hn)

/-- A form whose operand is all of `D`. -/
theorem valueForm_word {mk : U16 → Instr} (hopc : opc < 0x100)
    (hasm : ∀ x, assemble m [x] = (asmWord x).map mk)
    (henc : ∀ v, encode (mk v) = .command (commandWord (BitVec.ofNat 8 opc) 0 v)) :
    ValueForm m opc 0xFFFF (fun n => mk (BitVec.ofNat 16 n)) := by
  refine valueForm_of_assemble hopc (by omega) (fun n => ?_) (fun r => by rw [hasm, asmWord_reg]; rfl)
    (fun _ _ => henc _)
  rw [hasm, asmWord_num]
  split <;> rfl

/-- A form whose operand is `D[7:0]`. -/
theorem valueForm_byte {mk : U8 → Instr} (hopc : opc < 0x100)
    (hasm : ∀ x, assemble m [x] = (asmByte x).map mk)
    (henc : ∀ v, encode (mk v) = .command (commandWord (BitVec.ofNat 8 opc) 0 (byteOperand v))) :
    ValueForm m opc 0xFF (fun n => mk (BitVec.ofNat 8 n)) := by
  refine valueForm_of_assemble hopc (by omega) (fun n => ?_) (fun r => by rw [hasm, asmByte_reg]; rfl)
    (fun n hn => by rw [henc, byteOperand_ofNat (by omega)])
  rw [hasm, asmByte_num]
  split <;> rfl

/-- A form whose operand is `A`. -/
theorem addressForm_of_assemble {legal : Nat → Prop} [DecidablePred legal] {mk : U3 → Instr} (hopc : opc < 0x100)
    (hlegal : ∀ n, legal n → n < 8)
    (hasm : ∀ x, assemble m [x] =
      if legal (addressNumber x) then some (mk (BitVec.ofNat 3 (addressNumber x))) else none)
    (henc : ∀ a, encode (mk a) = .command (commandWord (BitVec.ofNat 8 opc) a 0)) :
    AddressForm m opc legal mk := by
  refine ⟨fun x hx => ?_, fun x hx => by rw [hasm, if_neg hx]⟩
  exact assemblesTo_of_encode (by rw [hasm, if_pos hx]) hopc (hlegal _ hx) (by omega) (henc _)

theorem assemble_read (x : AsmOperand) :
    assemble "READ" [x] =
      if addressNumber x < 8 then some (.read (BitVec.ofNat 3 (addressNumber x))) else none := by
  change (asmAddr x).map Instr.read = _
  rw [asmAddr_eq]
  split <;> rfl

theorem hasShadow_ofNat : ∀ n < 8, hasShadow (BitVec.ofNat 3 n) = decide (n ≠ 5 ∧ n ≠ 6) := by decide

theorem assemble_readShadow (x : AsmOperand) :
    assemble "READ_SHADOW" [x] =
      if addressNumber x < 8 ∧ addressNumber x ≠ 5 ∧ addressNumber x ≠ 6 then
        some (.readShadow (BitVec.ofNat 3 (addressNumber x))) else none := by
  change (asmAddr x).bind (fun a => if hasShadow a then some (Instr.readShadow a) else none) = _
  rw [asmAddr_eq]
  by_cases hx : addressNumber x < 8 <;> simp [hx, hasShadow_ofNat]

/-! ## WRITE -/

theorem assemble_write (x y : AsmOperand) :
    assemble "WRITE" [x, y] = (asmAddr x).bind (fun a => (asmWord y).map (.write a)) := rfl

theorem assemblesTo_write {x : AsmOperand} {n : Nat} (hx : addressNumber x < 8) (hn : n ≤ 0xFFFF) :
    AssemblesTo "WRITE" [x, .num n] (.write (BitVec.ofNat 3 (addressNumber x)) (BitVec.ofNat 16 n)) 0x02
      (addressNumber x) n := by
  refine assemblesTo_of_encode ?_ (by omega) hx (by omega) rfl
  rw [assemble_write, asmAddr_eq, if_pos hx, asmWord_num, if_pos hn]
  rfl

theorem assemble_write_illegal {x : AsmOperand} {n : Nat} (h : 8 ≤ addressNumber x ∨ 0xFFFF < n) :
    assemble "WRITE" [x, .num n] = none := by
  rw [assemble_write]
  rcases h with hx | hn
  · rw [asmAddr_eq, if_neg (by omega), Option.bind_none]
  · rw [asmWord_num, if_neg (by omega)]
    exact Option.bind_fun_none _

/-! ## All lines -/

/-- A line that assembles is one of the sixteen forms, and its instruction a command with an encoding. -/
theorem assemble_eq_some (h : assemble m ops = some i) :
    (m, ops.length) ∈ operandCounts ∧ i.wellFormed = true ∧ isCommand i = true := by
  unfold assemble at h
  split at h
  -- WRITE
  case h_3 =>
    obtain ⟨_, _, h⟩ := Option.bind_eq_some_iff.1 h
    obtain ⟨_, _, rfl⟩ := Option.map_eq_some_iff.1 h
    exact ⟨by simp [operandCounts], rfl, rfl⟩
  -- READ_SHADOW
  case h_16 =>
    obtain ⟨_, _, h⟩ := Option.bind_eq_some_iff.1 h
    obtain ⟨hshadow, h⟩ := Option.ite_none_right_eq_some.1 h
    cases h
    exact ⟨by simp [operandCounts], hshadow, rfl⟩
  -- the forms without operands
  case h_4 | h_5 | h_6 | h_7 | h_9 | h_10 =>
    cases h
    exact ⟨by decide, rfl, rfl⟩
  -- no form
  case h_17 => cases h
  -- the other forms with one operand
  all_goals
    obtain ⟨_, _, rfl⟩ := Option.map_eq_some_iff.1 h
    exact ⟨by simp [operandCounts], rfl, rfl⟩

/-- Settles O55: the forms share one argument for each kind of operand, and no other line matches a form. -/
theorem assembledLinesAreCommandWords : Obligations.AssembledLinesAreCommandWords := by
  refine ⟨?values, ⟨?read, ?readShadow⟩,
    ⟨fun _ _ => assemblesTo_write, fun _ _ => assemble_write_illegal, ?nameAsValue⟩, ?bare, ?noOther,
    fun m ops i h => (assemble_eq_some h).2, ⟨rfl, by decide⟩, by decide⟩
  case values =>
    refine ⟨?init, ?setStepMode, ?setGain, ?setDeadTime, ?setTorque, ?setOffTime, ?setPwmMode⟩
    case setTorque | setOffTime => exact valueForm_byte (by omega) (fun _ => rfl) (fun _ => rfl)
    all_goals exact valueForm_word (by omega) (fun _ => rfl) (fun _ => rfl)
  case read => exact addressForm_of_assemble (by omega) (fun _ h => h) assemble_read (fun _ => rfl)
  case readShadow => exact addressForm_of_assemble (by omega) (fun _ h => h.1) assemble_readShadow (fun _ => rfl)
  case nameAsValue =>
    intro x r
    rw [assemble_write, asmWord_reg]
    exact Option.bind_fun_none _
  case bare =>
    refine ⟨?_, ?_, ?_, ?_, ?_, ?_⟩
    all_goals exact assemblesTo_bare (by omega) rfl rfl
  case noOther =>
    intro m ops hno
    by_contra hsome
    obtain ⟨i, hi⟩ := Option.ne_none_iff_exists'.1 hsome
    exact hno (assemble_eq_some hi).1

end Sys2Proof.Proofs

namespace Sys2Proof.Proofs

/-! SUPPORT. The transport's commands INIT, READ and WRITE: their words, their gate and their next states (40_transport.md R110,
R114, R116 to R118). -/

open Sys2Proof.Machine Sys2Proof.Safety

variable {i : Instr} {opc : U8} {w value mask : U32} {s : State}

/-! ## The framing law (R114) -/

/-- Settles O12: of everything an instruction can do, five cases run one transaction, INIT adds its two events, and the rest
leave the trace. -/
theorem everyTransactionIsOneBracket : Obligations.EveryTransactionIsOneBracket := by
  intro i s t h
  rcases exec_eq_next h with ⟨_, rfl⟩ | ⟨_, _, rfl⟩ | ⟨_, _, l, hi, rfl⟩ | ⟨_, _, _, _, _, rfl⟩ | ⟨_, _, a, _, rfl⟩ |
    ⟨_, _, a, _, rfl⟩ | ⟨_, _, a, v, _, _, rfl⟩ | ⟨_, _, a, d, _, rfl⟩ | ⟨_, _, r, new, _, _, rfl⟩
  · exact .inl rfl
  · exact .inl rfl
  · exact .inr (.inl ⟨l, hi, by simp⟩)
  · exact .inl rfl
  all_goals exact .inr (.inr ⟨_, _, transact_trace _ _, rfl⟩)

/-! ## A step is decode, then exec (R110) -/

theorem issue_instr (h : decode (.command w) = .instr i) : issue w s = exec i s := by
  rw [issue, step_present, runPacket_instr h]

theorem decodeTableWord_eq_some {nbits n : Nat} (h : decodeTableWord nbits n = some i) :
    decode (tablePacket nbits n) = .instr i := by
  rw [decodeTableWord] at h
  split at h
  · next hdec => cases h; exact hdec
  · cases h

/-- Settles O3: the packet in front, or the table word put in front, is run on the rest of the state. -/
theorem stepRunsTheDecodedInstruction : Obligations.StepRunsTheDecodedInstruction := by
  refine ⟨fun s p i rest hin hdec => ?packet, fun s nbits n i hdec => ?tableWord⟩
  case packet => rw [step_issue hin, runPacket_instr hdec]
  case tableWord => rw [State.withFetchWord, step_present, runPacket_instr (decodeTableWord_eq_some hdec)]

/-! ## The words of a command (R80 to R82) -/

/-- A command word is its four fields side by side. -/
theorem command_eq_append (w : U32) : opcField w ++ rsvField w ++ aField w ++ dField w = w := by
  have hhead : w.extractLsb' 24 8 ++ w.extractLsb' 19 5 = w.extractLsb' 19 13 :=
    BitVec.extractLsb'_append_extractLsb'_eq_extractLsb' rfl
  have haddr : w.extractLsb' 19 13 ++ w.extractLsb' 16 3 = w.extractLsb' 16 16 :=
    BitVec.extractLsb'_append_extractLsb'_eq_extractLsb' rfl
  have hword : w.extractLsb' 16 16 ++ w.extractLsb' 0 16 = w.extractLsb' 0 32 :=
    BitVec.extractLsb'_append_extractLsb'_eq_extractLsb' rfl
  rw [opcField, rsvField, aField, dField, hhead, haddr, hword, BitVec.extractLsb'_eq_self]

theorem append_eq_append_iff {m n : Nat} {x x' : BitVec m} {y y' : BitVec n} :
    x ++ y = x' ++ y' ↔ x = x' ∧ y = y' := by
  refine ⟨fun h => ⟨?_, ?_⟩, fun ⟨hx, hy⟩ => by rw [hx, hy]⟩
  · simpa only [BitVec.extractLsb'_append_eq_left] using congrArg (BitVec.extractLsb' n m) h
  · simpa only [BitVec.extractLsb'_append_eq_right] using congrArg (BitVec.extractLsb' 0 n) h

/-- The mask of a row of R81: all of `OPC` and `RSV`, and of `A` and `D` the bits that must be 0. -/
def commandMask (ma : U3) (md : U16) : U32 := BitVec.allOnes 8 ++ BitVec.allOnes 5 ++ ma ++ md

theorem and_commandMask (w : U32) (ma : U3) (md : U16) :
    w &&& commandMask ma md = opcField w ++ rsvField w ++ (aField w &&& ma) ++ (dField w &&& md) := by
  conv_lhs => rw [← command_eq_append w]
  rw [commandMask, BitVec.and_append, BitVec.and_append, BitVec.and_append, BitVec.and_allOnes, BitVec.and_allOnes]

/-- What a match says, field by field. -/
theorem and_commandMask_eq_iff {ma : U3} {md : U16} :
    w &&& commandMask ma md = commandWord opc 0 0 ↔
      (opcField w = opc ∧ rsvField w = 0) ∧ aField w &&& ma = 0 ∧ dField w &&& md = 0 := by
  rw [and_commandMask, commandWord, append_eq_append_iff, append_eq_append_iff, append_eq_append_iff, and_assoc]
  exact Iff.rfl

/-- A command whose operand fields must be 0 under `ma` and `md` and are free elsewhere has the words that the match value and
mask of its row say, and every other word with its opcode is illegal. -/
theorem encodedAs_of_decodeOpcode {ma : U3} {md : U16} {mk : U3 → U16 → Instr} (hvalue : value = commandWord opc 0 0)
    (hmask : mask = commandMask ma md)
    (hrow : ∀ a d, decodeOpcode opc a d =
      if a &&& ma = 0 ∧ d &&& md = 0 then .instr (mk a d) else .illegal .operandNotZero) :
    EncodedAs opc value mask [] (fun w => mk (aField w) (dField w)) := by
  subst hvalue hmask
  refine ⟨fun w hw _ => ?decodes, fun w s hopc hmiss hf => ?faults⟩
  case decodes =>
    obtain ⟨⟨rfl, hrsv⟩, hzero⟩ := and_commandMask_eq_iff.1 hw
    have hdec : decodeCommand w = .instr (mk (aField w) (dField w)) :=
      decodeCommand_eq_instr.2 ⟨hrsv, (hrow _ _).trans (if_pos hzero)⟩
    exact ⟨hdec, (encode_of_decodeCommand hdec).1⟩
  case faults =>
    have hfield : opcField w = opc := hopc
    have hne : w &&& commandMask ma md ≠ commandWord opc 0 0 := hmiss.resolve_right List.not_mem_nil
    by_cases hrsv : rsvField w = 0
    · have hzero : ¬ (aField w &&& ma = 0 ∧ dField w &&& md = 0) := fun hzero =>
        hne (and_commandMask_eq_iff.2 ⟨⟨hfield, hrsv⟩, hzero⟩)
      refine issue_illegal (why := .operandNotZero) ?_ hf
      rw [decode, decodeCommand, if_neg (not_not_intro hrsv), hfield, hrow, if_neg hzero]
    · exact issue_illegal (if_pos hrsv) hf

/-- The row of a command whose operand is all of `D`. -/
theorem wordCommand_eq_ite (a : U3) (d : U16) :
    wordCommand a i =
      if a &&& BitVec.allOnes 3 = 0 ∧ d &&& 0 = 0 then .instr i else .illegal .operandNotZero := by
  rw [BitVec.and_allOnes]
  simp [wordCommand]

theorem decodeRead_eq_ite (a : U3) (d : U16) :
    decodeRead a d =
      if a &&& 0 = 0 ∧ d &&& BitVec.allOnes 16 = 0 then .instr (.read a) else .illegal .operandNotZero := by
  rw [BitVec.and_allOnes]
  simp [decodeRead]

/-! ## The gate of R110 -/

/-- A command behind the common gate needs INIT first (60_exceptions.md R202). -/
theorem needsInit_of_gate {run : State → Result} (hcmd : encode i = .command w)
    (hgate : ∀ s, exec i s = whenInitialized i.word s (run s)) : NeedsInit i := by
  intro s hf hi
  have hword : i.word = w := congrArg Packet.word hcmd
  exact ⟨w, hcmd, by rw [hgate, whenInitialized_before_init hf hi, hword, raiseFault_eq_afterFault]⟩

theorem initialisedBlock_ready : Ready initialisedBlock := ⟨rfl, rfl⟩

/-! ## INIT (R116) -/

theorem exec_init (l : U16) (s : State) :
    exec (.init l) s = whenRunning s
      (if s.initialized then raiseFault .alreadyInitialized (Instr.init l).word s
       else complete none { observe .csDeassert (observe (.bind l) s) with initialized := true, line := some l }) := rfl

theorem exec_init_binds (l : U16) (hf : s.fault = none) (hi : s.initialized = false) :
    exec (.init l) s = .next (afterCommand none
      { s with
        initialized := true, line := some l, cs := .deasserted, trace := s.trace ++ [.bind l, .csDeassert]
        dev := devOnDeassert s.dev s.pendingLatch, pendingLatch := none }) := by
  rw [exec_init, whenRunning_running hf, hi]
  simp [complete, afterCommand, observe]

theorem exec_init_again (l : U16) (hf : s.fault = none) (hi : s.initialized = true) :
    exec (.init l) s = .next (afterFault .alreadyInitialized (Instr.init l).word s) := by
  rw [exec_init, whenRunning_running hf, hi]
  rfl

theorem init_encodedAs : EncodedAs 0x00 0x00000000 0xFFFF0000 [] (fun w => .init (w.extractLsb' 0 16)) :=
  encodedAs_of_decodeOpcode (mk := fun _ d => .init d) rfl rfl fun a d => wordCommand_eq_ite a d

/-- Settles O13: INIT passes R110's halt check only; its own check is that no line is bound yet. -/
theorem initBindsTheLine : Obligations.InitBindsTheLine := by
  refine ⟨init_encodedAs, fun l s hf hi => exec_init_binds l hf hi, fun l s hf hi => ?again, ?exampleLine5⟩
  case again => exact ⟨_, rfl, exec_init_again l hf hi⟩
  case exampleLine5 =>
    have hdec : decode (.command 0x00000005) = .instr (.init 5) := by decide
    rw [issue_instr hdec, exec_init_binds 5 rfl rfl]
    exact ⟨_, rfl, rfl, rfl, rfl, rfl, rfl, rfl⟩

/-! ## READ (R117) -/

theorem exec_read_ready (a : U3) (hs : Ready s) :
    exec (.read a) s = .next (afterCommand (some (Config.busDraw s.draws)) (afterReadFrame a s)) := by
  obtain ⟨hf, hi⟩ := hs
  rw [exec_read, whenInitialized_ready hf hi, transact_readFrameWord]
  rfl

theorem read_encodedAs : EncodedAs 0x01 0x01000000 0xFFF8FFFF [] (fun w => .read (w.extractLsb' 16 3)) :=
  encodedAs_of_decodeOpcode (mk := fun a _ => .read a) rfl rfl decodeRead_eq_ite

/-- Settles O14: past the gate READ is one read frame, and its response is the word that frame's exchange drew. -/
theorem readReturnsTheWordReceived : Obligations.ReadReturnsTheWordReceived := by
  refine ⟨read_encodedAs, fun a => needsInit_of_gate rfl fun _ => exec_read a, fun a s hs => exec_read_ready a hs,
    fun a v s hs _ hecho => ⟨_, _, exec_read_ready a hs, rfl, hecho⟩, ?exampleStatus⟩
  have hdec : decode (.command 0x01070000) = .instr (.read 7) := by decide
  rw [issue_instr hdec, exec_read_ready 7 initialisedBlock_ready]
  exact ⟨_, _, rfl, rfl, rfl⟩

/-! ## WRITE (R118) -/

theorem exec_write_narrow (a : U3) {v : U16} (hs : Ready s) (hv : Narrow v) :
    exec (.write a v) s = .next (afterCommand none (afterWriteFrame a v s)) := by
  obtain ⟨hf, hi⟩ := hs
  rw [exec_write, whenInitialized_ready hf hi, memWrite, tooWide_eq_false.2 hv, id, transact_writeFrameWord s hv]
  rfl

theorem exec_write_wide (a : U3) {v : U16} (hs : Ready s) (hv : ¬ Narrow v) :
    exec (.write a v) s = .next (afterFault .writeValueTooWide (Instr.write a v).word s) := by
  obtain ⟨hf, hi⟩ := hs
  rw [exec_write, whenInitialized_ready hf hi, memWrite, tooWide_eq_true.2 hv]
  rfl

theorem write_encodedAs :
    EncodedAs 0x02 0x02000000 0xFFF80000 [] (fun w => .write (w.extractLsb' 16 3) (w.extractLsb' 0 16)) := by
  refine encodedAs_of_decodeOpcode (ma := 0) (md := 0) (mk := .write) rfl rfl fun a d => ?_
  rw [decodeOpcode_write, if_pos ⟨BitVec.and_zero, BitVec.and_zero⟩]

/-- Settles O15: past the gate the width check of R112 decides between one write frame and the fault. -/
theorem writeSendsOneFrameAndNoShadowChanges : Obligations.WriteSendsOneFrameAndNoShadowChanges := by
  refine ⟨write_encodedAs, fun a v => needsInit_of_gate rfl fun _ => exec_write a v,
    fun a v s hs hv => exec_write_narrow a hs hv, fun a v s hs hv => ⟨_, rfl, exec_write_wide a hs hv⟩, ?exampleBlank⟩
  have hdec : decode (.command 0x02030080) = .instr (.write 3 0x0080) := by decide
  rw [issue_instr hdec, exec_write_narrow 3 initialisedBlock_ready (by decide)]
  exact ⟨_, rfl, rfl, rfl⟩

end Sys2Proof.Proofs

namespace Sys2Proof.Proofs

/-! SUPPORT. The ten fields, the merge and the encode tables (41_controller_ctrl.md R131, R132, R139, R140, R150,
R155). -/

open Sys2Proof.Machine Sys2Proof.Safety

variable {f : BitField} {x c : U16}

/-! ## Fields and codes (R131) -/

/-- The bits of a mask are those of its field. -/
theorem getLsbD_fieldMask (hf : f ∈ allFields) {k : Nat} (hk : k < 16) :
    (fieldMask f).getLsbD k = decide (f.offset ≤ k ∧ k < f.offset + f.width) := by
  have hall : ∀ f ∈ allFields, ∀ k < 16,
      (fieldMask f).getLsbD k = decide (f.offset ≤ k ∧ k < f.offset + f.width) := by decide
  exact hall f hf k hk

theorem field_end_le (hf : f ∈ allFields) : f.offset + f.width ≤ 12 := by
  have hall : ∀ f ∈ allFields, f.offset + f.width ≤ 12 := by decide
  exact hall f hf

/-- A code that fits has no bit at or above its width. -/
theorem getLsbD_of_fits {n k : Nat} (hc : c.toNat < 2 ^ n) (hk : n ≤ k) : c.getLsbD k = false := by
  rw [← BitVec.testBit_toNat]
  exact Nat.testBit_lt_two_pow (hc.trans_le (Nat.pow_le_pow_right Nat.two_pos hk))

/-- A code of `n` bits, zero-extended, is below `2 ^ n`. -/
theorem setWidth_fits {n : Nat} (code : BitVec n) : (code.setWidth 16).toNat < 2 ^ n :=
  (BitVec.toNat_setWidth 16 code).trans_le (Nat.mod_le _ _) |>.trans_lt code.isLt

theorem shifted_code_inside_mask (hf : f ∈ allFields) (hc : c.toNat < 2 ^ f.width) :
    (c <<< f.offset) &&& ~~~(fieldMask f) = 0 := by
  apply BitVec.eq_of_getLsbD_eq
  intro k hk
  rw [BitVec.getLsbD_and, BitVec.getLsbD_not, getLsbD_fieldMask hf hk, BitVec.getLsbD_shiftLeft]
  by_cases hend : k < f.offset + f.width
  · by_cases hstart : f.offset ≤ k <;> simp [hstart, hend, hk]
  · simp [getLsbD_of_fits hc (show f.width ≤ k - f.offset by omega)]

theorem code_shifts_back (hf : f ∈ allFields) (hc : c.toNat < 2 ^ f.width) : (c <<< f.offset) >>> f.offset = c := by
  have hend := field_end_le hf
  apply BitVec.eq_of_getLsbD_eq
  intro k _
  rw [BitVec.getLsbD_ushiftRight, BitVec.getLsbD_shiftLeft, Nat.add_sub_cancel_left]
  by_cases hk : k < f.width
  · simp [show f.offset + k < 16 by omega]
  · simp [getLsbD_of_fits hc (Nat.le_of_not_lt hk)]

/-- Settles O30: a field ends at bit 11 or below, and a code that fits has its bits below the field's width. -/
theorem fieldMasksAndCodesFit : Obligations.FieldMasksAndCodesFit := by
  refine ⟨by decide, by decide, fun _ _ => rfl, fun m g t v => ?codes, by decide, fun f hf _ c hc => ?fits⟩
  case codes => exact ⟨(encMode m).isLt, (encGain g).isLt, (encDeadTime t).isLt, v.isLt, v.isLt⟩
  case fits => exact ⟨rfl, shifted_code_inside_mask hf hc, code_shifts_back hf hc⟩

/-! ## The merge (R132) -/

theorem merge_outside_field (x : U16) (hf : f ∈ allFields) (hc : c.toNat < 2 ^ f.width) :
    merge x f c &&& ~~~(fieldMask f) = x &&& ~~~(fieldMask f) := by
  rw [merge, BitVec.and_or_distrib_right, shifted_code_inside_mask hf hc, BitVec.and_assoc, BitVec.and_self]
  exact BitVec.or_zero

theorem merge_inside_field (x : U16) (hf : f ∈ allFields) (hc : c.toNat < 2 ^ f.width) :
    (merge x f c &&& fieldMask f) >>> f.offset = c := by
  have hcode : (c <<< f.offset) &&& fieldMask f = c <<< f.offset := by
    have hsplit : c <<< f.offset =
        (c <<< f.offset) &&& fieldMask f ||| (c <<< f.offset) &&& ~~~(fieldMask f) := by
      rw [← BitVec.and_or_distrib_left, BitVec.or_not_self, BitVec.and_allOnes]
    rw [shifted_code_inside_mask hf hc] at hsplit
    exact (hsplit.trans BitVec.or_zero).symm
  have hold : x &&& ~~~(fieldMask f) &&& fieldMask f = 0 := by
    rw [BitVec.and_assoc, BitVec.and_comm (~~~_), BitVec.and_not_self]
    exact BitVec.and_zero
  rw [merge, BitVec.and_or_distrib_right, hcode, hold, show (0 : U16) ||| c <<< f.offset = _ from BitVec.zero_or]
  exact code_shifts_back hf hc

/-! ## One-bit fields: set, clear and toggle as merges -/

theorem fieldMask_one_bit (hw : f.width = 1) : fieldMask f = 1#16 <<< f.offset := by
  rw [fieldMask, hw]
  rfl

theorem clear_eq_merge (x : U16) (f : BitField) : x &&& ~~~(fieldMask f) = merge x f 0 := by
  rw [merge, show (0 : U16) <<< f.offset = 0 from BitVec.zero_shiftLeft _]
  exact BitVec.or_zero.symm

theorem or_eq_clear_or (x m : U16) : x ||| m = x &&& ~~~m ||| m := by
  ext k hk
  by_cases h : m[k] <;> simp [h]

theorem set_eq_merge (hw : f.width = 1) (x : U16) : x ||| fieldMask f = merge x f 1 := by
  have hcode : fieldMask f = (1 : U16) <<< f.offset := fieldMask_one_bit hw
  rw [merge, ← hcode, ← or_eq_clear_or]

theorem xor_eq_or_of_and_eq_zero {x m : U16} (h : x &&& m = 0) : x ^^^ m = x ||| m := by
  ext k hk
  have hbit : (x[k] && m[k]) = false := by simpa using congrArg (·[k]) h
  cases hm : m[k]
  · simp [hm]
  · simpa [hm] using hbit

theorem xor_eq_clear_of_and_eq_self {x m : U16} (h : x &&& m = m) : x ^^^ m = x &&& ~~~m := by
  ext k hk
  have hbit : (x[k] && m[k]) = m[k] := by rw [← BitVec.getElem_and, h]
  cases hm : m[k]
  · simp [hm]
  · simpa [hm] using hbit

theorem and_fieldMask_one_bit (hw : f.width = 1) (x : U16) :
    x &&& fieldMask f = if x.getLsbD f.offset then fieldMask f else 0 := by
  rw [fieldMask_one_bit hw, ← BitVec.twoPow_eq]
  exact BitVec.and_twoPow x f.offset

theorem fieldOf_one_bit (hf : f ∈ allFields) (hw : f.width = 1) (x : U16) :
    fieldOf x f = if x.getLsbD f.offset then 1 else 0 := by
  rw [fieldOf, and_fieldMask_one_bit hw]
  split
  · rw [fieldMask_one_bit hw]
    exact code_shifts_back (c := 1) hf (by rw [hw]; decide)
  · exact BitVec.zero_ushiftRight

theorem toggled_code_fits (hf : f ∈ allFields) (hw : f.width = 1) (x : U16) :
    (1 - fieldOf x f).toNat < 2 ^ f.width := by
  rw [fieldOf_one_bit hf hw, hw]
  split <;> decide

theorem toggle_eq_merge (hf : f ∈ allFields) (hw : f.width = 1) (x : U16) :
    x ^^^ fieldMask f = merge x f (1 - fieldOf x f) := by
  have hand := and_fieldMask_one_bit hw x
  rw [fieldOf_one_bit hf hw]
  by_cases hbit : x.getLsbD f.offset
  · rw [if_pos hbit] at hand ⊢
    exact (xor_eq_clear_of_and_eq_self hand).trans (clear_eq_merge x f)
  · rw [if_neg hbit] at hand ⊢
    exact (xor_eq_or_of_and_eq_zero hand).trans (set_eq_merge hw x)

/-! ## The encode tables (R140, R150, R155) -/

theorem encMode_unlisted {m : U16} (hm : m ∉ [1, 2, 4, 8, 16, 32, 64, 128, 256]) : encMode m = 2 := by
  simp only [List.mem_cons, List.not_mem_nil, or_false, not_or] at hm
  simp only [encMode, hm, if_false]

theorem encGain_unlisted {g : U16} (hg : g ∉ [5, 10, 20, 40]) : encGain g = 2 := by
  simp only [List.mem_cons, List.not_mem_nil, or_false, not_or] at hg
  simp only [encGain, hg, if_false]

theorem encDeadTime_unlisted {t : U16} (ht : t ∉ [400, 450, 650, 850]) : encDeadTime t = 3 := by
  simp only [List.mem_cons, List.not_mem_nil, or_false, not_or] at ht
  simp only [encDeadTime, ht, if_false]

theorem encMode_le (m : U16) : (encMode m).toNat ≤ 8 := by
  by_cases hm : m ∈ [1, 2, 4, 8, 16, 32, 64, 128, 256]
  · have hlisted : List.Forall (fun m => (encMode m).toNat ≤ 8) [1, 2, 4, 8, 16, 32, 64, 128, 256] := by decide
    exact List.forall_iff_forall_mem.1 hlisted m hm
  · rw [encMode_unlisted hm]
    decide

end Sys2Proof.Proofs

namespace Sys2Proof.Proofs

/-! SUPPORT. A setter as its row of the summary table: its field, its next state and what it does to the shadow
(41_controller_ctrl.md R130 to R134, 42_controller_regs.md R185). -/

open Sys2Proof.Machine Sys2Proof.Safety

variable {i j : Instr} {q r : ShadowReg} {f : BitField} {v new : U16} {s t u : State}

/-! ## A setter that runs -/

/-- On a running initialised block a setter whose value fits a frame completes with its row (R130). -/
theorem exec_setter_ready (hs : Ready s) (hrow : setterTable s.shadow s.disableClearsAll i = some (r, new))
    (hnew : Narrow new) : exec i s = .next (afterSetter r new s) := by
  obtain ⟨hf, hi⟩ := hs
  rw [exec_of_setterTable hrow, setter_ready hf hi (tooWide_eq_false.2 hnew), transact_writeFrameWord _ hnew]
  rfl

/-- From narrow shadows every setter's value fits a frame. -/
theorem exec_setter_narrow (hs : Ready s) (hn : ShadowNarrow s)
    (hrow : setterTable s.shadow s.disableClearsAll i = some (r, new)) : exec i s = .next (afterSetter r new s) :=
  exec_setter_ready hs hrow (narrow_of_setterTable hn hrow)

theorem setsTo_of_row {new : State → U16}
    (hrow : ∀ s, setterTable s.shadow s.disableClearsAll i = some (r, new s)) : SetsTo i r new :=
  fun s hs hn => exec_setter_narrow hs hn (hrow s)

theorem ready_afterSetter (r : ShadowReg) (new : U16) (hs : Ready s) : Ready (afterSetter r new s) := hs

/-- The example of a setter's rule: its row on the initialised block, and the frame of that value. -/
theorem exampleSetter_of_row (hrow : setterTable Shadow.reset false i = some (r, new)) (hnew : Narrow new) :
    ExampleSetter i r new (writeBits r.addr new) :=
  ⟨_, exec_setter_ready initialisedBlock_ready hrow hnew, Shadow.get_set_same _ r new, rfl⟩

/-- Two setters in a row on a running initialised block, the second starting from the shadow the first leaves. -/
theorem exec_setters_in_a_row {w : U16} (hs : Ready s)
    (hi : setterTable s.shadow s.disableClearsAll i = some (q, v)) (hv : Narrow v)
    (hj : setterTable (s.shadow.set q v) s.disableClearsAll j = some (r, w)) (hw : Narrow w) :
    ∃ t u, exec i s = .next t ∧ exec j t = .next u ∧ u.shadow = (s.shadow.set q v).set r w ∧
      t.trace = s.trace ++ bracket (writeBits q.addr v) (Config.busDraw s.draws) ∧
      u.trace = t.trace ++ bracket (writeBits r.addr w) (Config.busDraw (s.draws + 1)) :=
  ⟨_, _, exec_setter_ready hs hi hv, exec_setter_ready (ready_afterSetter q v hs) hj hw, rfl, rfl, rfl⟩

/-! ## Arguments (R134) -/

theorem setterTable_setStepMode_unlisted {m : U16} (hm : m ∉ [1, 2, 4, 8, 16, 32, 64, 128, 256]) (x : Shadow)
    (c : Bool) : setterTable x c (.setStepMode m) = some (.ctrl, merge x.ctrl ctrlMode 2) := by
  rw [setterTable, encMode_unlisted hm]
  rfl

theorem setterTable_setGain_unlisted {g : U16} (hg : g ∉ [5, 10, 20, 40]) (x : Shadow) (c : Bool) :
    setterTable x c (.setGain g) = some (.ctrl, merge x.ctrl ctrlGain 2) := by
  rw [setterTable, encGain_unlisted hg]
  rfl

theorem setterTable_setDeadTime_unlisted {d : U16} (hd : d ∉ [400, 450, 650, 850]) (x : Shadow) (c : Bool) :
    setterTable x c (.setDeadTime d) = some (.ctrl, merge x.ctrl ctrlDtime 3) := by
  rw [setterTable, encDeadTime_unlisted hd]
  rfl

theorem encode_of_targetOf (hr : targetOf i = some r) : encode i = .command i.word := by
  cases i with
  | readFrame a | writeFrame a d => cases hr
  | _ => rfl

theorem needsInit_of_targetOf (hr : targetOf i = some r) : NeedsInit i := by
  intro s hf hi
  obtain ⟨new, -, hexec⟩ := exec_of_targetOf hr s
  exact ⟨i.word, encode_of_targetOf hr, by
    rw [hexec, setter, whenInitialized_before_init hf hi, raiseFault_eq_afterFault]⟩

/-- Settles O36: on narrow shadows a setter's value fits a frame, so only the gate of R110 is left to fault. -/
theorem settersNeverFailOnTheirArgument : Obligations.SettersNeverFailOnTheirArgument := by
  refine ⟨fun i r s hr hn hf => ⟨fun hi => ?completes, fun hi => ?faults⟩,
    fun m s hs hn hm => ⟨_, exec_setter_narrow hs hn (setterTable_setStepMode_unlisted hm _ _), rfl⟩,
    fun g s hs hn hg => ⟨_, exec_setter_narrow hs hn (setterTable_setGain_unlisted hg _ _), rfl⟩,
    fun d s hs hn hd => ⟨_, exec_setter_narrow hs hn (setterTable_setDeadTime_unlisted hd _ _), rfl⟩⟩
  case completes =>
    obtain ⟨new, hrow⟩ := setterTable_of_targetOf hr s.shadow s.disableClearsAll
    exact ⟨_, exec_setter_narrow ⟨hf, hi⟩ hn hrow, hf⟩
  case faults =>
    obtain ⟨w, -, hexec⟩ := needsInit_of_targetOf hr s hf hi
    exact ⟨_, _, hexec, rfl, rfl⟩

/-- Settles O32: the tables on their listed arguments, the fallback on all others, and SET_GAIN 7 as an example. -/
theorem encodeTablesAndFallbacks : Obligations.EncodeTablesAndFallbacks :=
  ⟨by decide, fun _ => encMode_unlisted, encMode_le, by decide, fun _ => encGain_unlisted, by decide,
    fun _ => encDeadTime_unlisted, by decide, exampleSetter_of_row rfl (by decide)⟩

/-! ## The shadow after a setter -/

/-- A setter writes its row to the shadow exactly when it runs and its value fits a frame. -/
theorem exec_setter_shadow (hrow : setterTable s.shadow s.disableClearsAll i = some (r, new))
    (h : exec i s = .next t) : t.shadow = if Ready s ∧ Narrow new then s.shadow.set r new else s.shadow := by
  by_cases hruns : Ready s ∧ Narrow new
  · rw [exec_setter_ready hruns.1 hrow hruns.2] at h
    cases h
    rw [if_pos hruns]
    rfl
  · rw [if_neg hruns]
    rw [exec_of_setterTable hrow] at h
    rcases setter_eq_next h with ⟨_, rfl⟩ | ⟨_, _, rfl⟩ | ⟨hf, hi, hw, _⟩
    · rfl
    · rfl
    · exact absurd ⟨⟨hf, hi⟩, tooWide_eq_false.1 hw⟩ hruns

theorem exec_shadow_eq_of_same_row (hi : setterTable s.shadow s.disableClearsAll i = some (r, new))
    (hj : setterTable s.shadow s.disableClearsAll j = some (r, new)) (ht : exec i s = .next t)
    (hu : exec j s = .next u) : t.shadow = u.shadow := by
  rw [exec_setter_shadow hi ht, exec_setter_shadow hj hu]

/-! ## Setters of different registers commute -/

/-- A row reads only its own register. -/
theorem setterTable_congr {x y : Shadow} {c : Bool} (hxy : x.get r = y.get r)
    (hrow : setterTable x c i = some (r, new)) : setterTable y c i = some (r, new) := by
  cases i <;> cases hrow
  all_goals
    simp only [Shadow.get_ctrl, Shadow.get_torque, Shadow.get_off] at hxy
    rw [setterTable, hxy]

theorem setterTable_set_other {x : Shadow} {c : Bool} (hqr : q ≠ r)
    (hrow : setterTable x c i = some (r, new)) : setterTable (x.set q v) c i = some (r, new) :=
  setterTable_congr (Shadow.get_set_other x r q v hqr.symm).symm hrow

/-- A setter that does not run leaves a block that still does not run setters. -/
theorem not_ready_of_exec_setter (hrow : setterTable s.shadow s.disableClearsAll i = some (r, new)) (hs : ¬ Ready s)
    (h : exec i s = .next t) : ¬ Ready t := by
  rw [exec_of_setterTable hrow] at h
  rcases setter_eq_next h with ⟨_, rfl⟩ | ⟨_, _, rfl⟩ | ⟨hf, hi, _⟩
  · exact hs
  · exact fun ht => nomatch ht.1
  · exact absurd ⟨hf, hi⟩ hs

theorem exec_two_setters_shadow {w : U16} (hn : ShadowNarrow s) (hqr : q ≠ r)
    (hi : setterTable s.shadow s.disableClearsAll i = some (q, v))
    (hj : setterTable s.shadow s.disableClearsAll j = some (r, w))
    (hr : targetOf j = some r) (ht : exec i s = .next t) (hu : exec j t = .next u) :
    u.shadow = if Ready s then (s.shadow.set q v).set r w else s.shadow := by
  by_cases hs : Ready s
  · have hfirst := exec_setter_narrow hs hn hi
    have hsecond := exec_setter_ready (ready_afterSetter q v hs) (setterTable_set_other hqr hj)
      (narrow_of_setterTable hn hj)
    cases hfirst.symm.trans ht
    cases hsecond.symm.trans hu
    rw [if_pos hs]
    rfl
  · obtain ⟨_, hrow⟩ := setterTable_of_targetOf hr t.shadow t.disableClearsAll
    rw [exec_setter_shadow hrow hu, if_neg fun hrun => not_ready_of_exec_setter hi hs ht hrun.1,
      exec_setter_shadow hi ht, if_neg fun hrun => hs hrun.1, if_neg hs]

/-- Settles O35: a row reads and writes one register, so that rows of two registers can be applied in either order. -/
theorem settersFollowTheTable : Obligations.SettersFollowTheTable := by
  refine ⟨fun i r new s hs hn hrow => exec_setter_narrow hs hn hrow,
    fun i j q r s t u t' u' hn hti htj hqr ht hu ht' hu' => ?_⟩
  obtain ⟨v, hi⟩ := setterTable_of_targetOf hti s.shadow s.disableClearsAll
  obtain ⟨w, hj⟩ := setterTable_of_targetOf htj s.shadow s.disableClearsAll
  rw [exec_two_setters_shadow hn hqr hi hj htj ht hu, exec_two_setters_shadow hn hqr.symm hj hi hti ht' hu',
    Shadow.set_comm s.shadow q r v w hqr]

/-! ## Every row is a merge into its field (R132) -/

/-- Every setter but the clearing DISABLE merges a code that fits into its field. -/
theorem row_eq_merge {x : Shadow} {c : Bool} (hfield : fieldWritten i = some f)
    (hclear : ¬ (i = .disable ∧ c = true)) :
    f ∈ allFields ∧ ∃ code : U16, code.toNat < 2 ^ f.width ∧
      setterTable x c i = some (f.reg, merge (x.get f.reg) f code) := by
  have row : ∀ {r : ShadowReg} {new new' : U16}, new = new' → some (r, new) = some (r, new') := fun h => h ▸ rfl
  cases i <;> cases hfield <;> refine ⟨by decide, ?_⟩
  case enable => exact ⟨1, by decide, row (set_eq_merge (f := ctrlEn) rfl _)⟩
  case disable =>
    cases c with
    | false => exact ⟨0, by decide, row (clear_eq_merge _ ctrlEn)⟩
    | true => exact absurd ⟨rfl, rfl⟩ hclear
  case flipDir =>
    exact ⟨_, toggled_code_fits (by decide) rfl _, row (toggle_eq_merge (f := ctrlDir) (by decide) rfl _)⟩
  case step => exact ⟨1, by decide, row (set_eq_merge (f := ctrlStep) rfl _)⟩
  case setStepMode m => exact ⟨(encMode m).setWidth 16, setWidth_fits _, rfl⟩
  case setExtStall => exact ⟨1, by decide, row (set_eq_merge (f := ctrlExstall) rfl _)⟩
  case setIntStall => exact ⟨0, by decide, row (clear_eq_merge _ ctrlExstall)⟩
  case setGain g => exact ⟨(encGain g).setWidth 16, setWidth_fits _, rfl⟩
  case setDeadTime t => exact ⟨(encDeadTime t).setWidth 16, setWidth_fits _, rfl⟩
  case setTorque v => exact ⟨v.setWidth 16, setWidth_fits _, row (merge_low_byte torqueVal rfl _ _).symm⟩
  case setOffTime v => exact ⟨v.setWidth 16, setWidth_fits _, row (merge_low_byte offToff rfl _ _).symm⟩
  case setPwmMode m =>
    exact ⟨_, toggled_code_fits (by decide) rfl _, row (toggle_eq_merge (f := offPwm) (by decide) rfl _)⟩

/-- Settles O31: every setter but the clearing DISABLE is a merge into its field, which keeps the bits outside. -/
theorem settersLeaveOtherFieldsAlone : Obligations.SettersLeaveOtherFieldsAlone := by
  refine ⟨fun f hf x c hc => ⟨merge_outside_field x hf hc, merge_inside_field x hf hc⟩,
    fun i f s t hfield h hclear => ?_⟩
  obtain ⟨hf, c, hc, hrow⟩ := row_eq_merge (x := s.shadow) hfield hclear
  rw [exec_setter_shadow hrow h]
  split
  · refine ⟨fun r hr => Shadow.get_set_other s.shadow r f.reg _ hr, ?_⟩
    rw [Shadow.get_set_same, merge_outside_field _ hf hc]
  · exact ⟨fun _ _ => rfl, rfl⟩

end Sys2Proof.Proofs

namespace Sys2Proof.Proofs

/-! SUPPORT. The nine commands on CTRL: their words, rules and examples (41_controller_ctrl.md R135 to R156). -/

open Sys2Proof.Machine Sys2Proof.Safety

variable {i j : Instr} {opc : U8} {value : U32} {x : Shadow} {c : Bool} {v new : U16} {s t : State}

/-! ## The words of a command without an operand, and with one (R81) -/

theorem bareCommand_eq_ite (a : U3) (d : U16) :
    bareCommand a d i =
      if a &&& BitVec.allOnes 3 = 0 ∧ d &&& BitVec.allOnes 16 = 0 then .instr i else .illegal .operandNotZero := by
  rw [BitVec.and_allOnes, BitVec.and_allOnes]
  rfl

theorem bareCommand_encodedAs (hvalue : value = commandWord opc 0 0)
    (hrow : ∀ a d, decodeOpcode opc a d = bareCommand a d i) : EncodedAs opc value 0xFFFFFFFF [] (fun _ => i) :=
  encodedAs_of_decodeOpcode (mk := fun _ _ => i) hvalue rfl fun a d => (hrow a d).trans (bareCommand_eq_ite a d)

theorem wordCommand_encodedAs {mk : U16 → Instr} (hvalue : value = commandWord opc 0 0)
    (hrow : ∀ a d, decodeOpcode opc a d = wordCommand a (mk d)) :
    EncodedAs opc value 0xFFFF0000 [] (fun w => mk (w.extractLsb' 0 16)) :=
  encodedAs_of_decodeOpcode (mk := fun _ d => mk d) hvalue rfl fun a d => (hrow a d).trans (wordCommand_eq_ite a d)

/-! ## Two setters of CTRL in a row -/

/-- What the second leaves in the shadow it also sends. -/
theorem exec_ctrl_setters_in_a_row (hs : Ready s)
    (hi : setterTable s.shadow s.disableClearsAll i = some (.ctrl, v)) (hv : Narrow v)
    (hj : setterTable (s.shadow.set .ctrl v) s.disableClearsAll j = some (.ctrl, new)) (hnew : Narrow new) :
    ∃ t u, exec i s = .next t ∧ exec j t = .next u ∧ u.shadow.ctrl = new ∧
      u.trace = t.trace ++ bracket (writeBits 0 new) (Config.busDraw (s.draws + 1)) := by
  obtain ⟨t, u, ht, hu, hshadow, -, htrace⟩ := exec_setters_in_a_row hs hi hv hj hnew
  exact ⟨t, u, ht, hu, congrArg Shadow.ctrl hshadow, htrace⟩

/-! ## One bit set, cleared or toggled -/

theorem or_or_self (v m : U16) : v ||| m ||| m = v ||| m := by rw [BitVec.or_assoc, BitVec.or_self]

/-- Settles O17: setting the bit is the merge of 1 into `CTRL.EN`, and it is set already the second time. -/
theorem enableSetsBitZero : Obligations.EnableSetsBitZero :=
  ⟨bareCommand_encodedAs rfl fun _ _ => rfl, needsInit_of_targetOf rfl, setsTo_of_row fun _ => rfl,
    fun v => ⟨set_eq_merge (f := ctrlEn) rfl v, or_or_self v 1⟩, exampleSetter_of_row rfl (by decide)⟩

/-- Settles O18: DISABLE's row under each setting of the parameter. -/
theorem disableClearsBitZeroOrAll : Obligations.DisableClearsBitZeroOrAll := by
  refine ⟨bareCommand_encodedAs rfl fun _ _ => rfl, needsInit_of_targetOf rfl, fun s hs hn hc => ?bitZero,
    fun s hs hc => ?all, exec_ctrl_setters_in_a_row initialisedBlock_ready rfl (by decide) rfl (by decide),
    exec_ctrl_setters_in_a_row (s := { initialisedBlock with disableClearsAll := true }) initialisedBlock_ready rfl
      (by decide) rfl (by decide)⟩
  case bitZero =>
    have hrow : setterTable s.shadow s.disableClearsAll .disable = some (.ctrl, s.shadow.ctrl &&& ~~~0x0001) := by
      rw [hc]; rfl
    exact exec_setter_narrow hs hn hrow
  case all =>
    have hrow : setterTable s.shadow s.disableClearsAll .disable = some (.ctrl, 0x0000) := by rw [hc]; rfl
    exact exec_setter_ready hs hrow (by decide)

/-- Settles O19: toggling the bit is a merge into `CTRL.DIR`, and a toggle twice over is none. -/
theorem flipDirTogglesBitOne : Obligations.FlipDirTogglesBitOne := by
  refine ⟨bareCommand_encodedAs rfl fun _ _ => rfl, needsInit_of_targetOf rfl, setsTo_of_row fun _ => rfl,
    fun v => toggle_eq_merge (f := ctrlDir) (by decide) rfl v, fun s hs hn => ?twice,
    exampleSetter_of_row rfl (by decide)⟩
  have hback : s.shadow.ctrl ^^^ 0x0002 ^^^ 0x0002 = s.shadow.ctrl := by
    rw [BitVec.xor_assoc, BitVec.xor_self]
    exact BitVec.xor_zero
  have hsecond : setterTable (s.shadow.set .ctrl (s.shadow.ctrl ^^^ 0x0002)) s.disableClearsAll .flipDir =
      some (.ctrl, s.shadow.ctrl) := congrArg (fun v => some (ShadowReg.ctrl, v)) hback
  obtain ⟨t, u, ht, hu, hshadow, htrace, hutrace⟩ := exec_setters_in_a_row (i := .flipDir) hs rfl
    (narrow_of_setterTable (i := .flipDir) hn rfl) hsecond hn.1
  exact ⟨t, u, ht, hu, hshadow, by rw [hutrace, htrace]; rfl⟩

/-- Settles O22: SET_EXT_STALL's row is idempotent. -/
theorem setExtStallSetsBitSeven : Obligations.SetExtStallSetsBitSeven :=
  ⟨bareCommand_encodedAs rfl fun _ _ => rfl, needsInit_of_targetOf rfl, setsTo_of_row fun _ => rfl,
    fun v => or_or_self v 0x0080, exampleSetter_of_row rfl (by decide)⟩

/-- Settles O23: SET_INT_STALL's row, on a fresh controller and after SET_EXT_STALL. -/
theorem setIntStallClearsBitSeven : Obligations.SetIntStallClearsBitSeven :=
  ⟨bareCommand_encodedAs rfl fun _ _ => rfl, needsInit_of_targetOf rfl, setsTo_of_row fun _ => rfl,
    exampleSetter_of_row rfl (by decide),
    exec_ctrl_setters_in_a_row initialisedBlock_ready rfl (by decide) rfl (by decide)⟩

/-! ## A code merged into a field -/

/-- Settles O21: SET_STEP_MODE reads its argument only through its code, and 4 has the fallback's code. -/
theorem setStepModeMergesTheCode : Obligations.SetStepModeMergesTheCode :=
  ⟨wordCommand_encodedAs rfl fun _ _ => rfl, fun m => needsInit_of_targetOf rfl, fun m => setsTo_of_row fun _ => rfl,
    fun m _ _ _ hm => exec_shadow_eq_of_same_row (setterTable_setStepMode_unlisted hm _ _) rfl,
    exampleSetter_of_row rfl (by decide)⟩

/-- Settles O24: SET_GAIN reads its argument only through its code, and 20 has the fallback's code. -/
theorem setGainMergesTheCode : Obligations.SetGainMergesTheCode :=
  ⟨wordCommand_encodedAs rfl fun _ _ => rfl, fun g => needsInit_of_targetOf rfl, fun g => setsTo_of_row fun _ => rfl,
    fun g _ _ _ hg => exec_shadow_eq_of_same_row (setterTable_setGain_unlisted hg _ _) rfl,
    exampleSetter_of_row rfl (by decide)⟩

/-- Settles O25: SET_DEAD_TIME reads its argument only through its code, and 850 has the fallback's code. -/
theorem setDeadTimeMergesTheCode : Obligations.SetDeadTimeMergesTheCode :=
  ⟨wordCommand_encodedAs rfl fun _ _ => rfl, fun d => needsInit_of_targetOf rfl, fun d => setsTo_of_row fun _ => rfl,
    fun d _ _ _ hd => exec_shadow_eq_of_same_row (setterTable_setDeadTime_unlisted hd _ _) rfl,
    exampleSetter_of_row rfl (by decide)⟩

/-! ## The STEP bit stays (R138) -/

/-- No setter but the clearing DISABLE clears bit 2 of CTRL (70_reset_and_hazards.md R242). -/
theorem setterTable_keeps_step_set (hbit : x.ctrl.getLsbD 2 = true) (hclear : ¬ (i = .disable ∧ c = true))
    (hrow : setterTable x c i = some (.ctrl, new)) : new.getLsbD 2 = true := by
  cases i <;> simp only [setterTable, Option.some.injEq, Prod.mk.injEq, reduceCtorEq, true_and, false_and] at hrow <;>
    subst hrow
  case disable =>
    cases c with
    | false => simpa using hbit
    | true => exact absurd ⟨rfl, rfl⟩ hclear
  case step => simp
  all_goals simpa using hbit

theorem exec_keeps_step_set (h : exec i s = .next t) (hbit : s.shadow.ctrl.getLsbD 2 = true)
    (hclear : ¬ (i = .disable ∧ s.disableClearsAll = true)) : t.shadow.ctrl.getLsbD 2 = true := by
  rcases exec_shadow h with hsame | ⟨r, new, hrow, -, hset⟩
  · rwa [hsame]
  · by_cases hr : r = .ctrl
    · subst hr
      rw [hset]
      exact setterTable_keeps_step_set hbit hclear hrow
    · have hother : t.shadow.get .ctrl = s.shadow.get .ctrl := by
        rw [hset, Shadow.get_set_other _ _ _ _ (Ne.symm hr)]
      rw [← Shadow.get_ctrl, hother]
      exact hbit

theorem getLsbD_writeBits (a : U3) (v : U16) {k : Nat} (hk : k < 12) : (writeBits a v).getLsbD k = v.getLsbD k := by
  rw [writeBits, BitVec.getLsbD_append, if_pos hk, BitVec.getLsbD_extractLsb']
  simp [hk]

/-- Settles O20: STEP's row, and the bit it sets in every later row of CTRL and so in its frame. -/
theorem stepSetsBitTwoAndKeepsIt : Obligations.StepSetsBitTwoAndKeepsIt := by
  refine ⟨bareCommand_encodedAs rfl fun _ _ => rfl, needsInit_of_targetOf rfl, setsTo_of_row fun _ => rfl,
    exampleSetter_of_row rfl (by decide),
    exec_ctrl_setters_in_a_row initialisedBlock_ready rfl (by decide) rfl (by decide),
    fun v => ⟨by simp, or_or_self v 4⟩,
    fun i s t h hbit hclear => ⟨exec_keeps_step_set h hbit hclear, fun hr hs hn => ?frame⟩⟩
  obtain ⟨new, hrow⟩ := setterTable_of_targetOf hr s.shadow s.disableClearsAll
  cases (exec_setter_narrow hs hn hrow).symm.trans h
  refine ⟨_, _, rfl, ?_⟩
  rw [getLsbD_writeBits _ _ (by decide)]
  exact setterTable_keeps_step_set hbit hclear hrow

end Sys2Proof.Proofs

namespace Sys2Proof.Proofs

/-! SUPPORT. Field extraction, the decode tables and their round trips, the three commands on TORQUE and OFF, and
READ_SHADOW (42_controller_regs.md R170 to R184). -/

open Sys2Proof.Machine Sys2Proof.Safety

variable {opc : U8} {value w : U32} {f : BitField} {i : Instr} {s : State}

/-! ## Round trips of the three settings (R184) -/

/-- A table that keeps the arguments it lists and takes every other one to its fallback. -/
theorem listed_or_fallback {β : Type} {g out : U16 → β} {listed : List U16} {fallback : U16}
    (hlisted : listed.Forall fun m => g m = out m) (hother : ∀ m ∉ listed, g m = out fallback) (m : U16) :
    g m = out (if m ∈ listed then m else fallback) := by
  split
  · next hm => exact List.forall_iff_forall_mem.1 hlisted m hm
  · next hm => exact hother m hm

theorem decMode_encMode (m : U16) :
    decMode (encMode m) = some (if m ∈ [1, 2, 4, 8, 16, 32, 64, 128, 256] then m else 4) :=
  listed_or_fallback (g := fun m => decMode (encMode m)) (by decide) (fun m hm => by rw [encMode_unlisted hm]; rfl) m

theorem decGain_encGain (g : U16) : decGain (encGain g) = if g ∈ [5, 10, 20, 40] then g else 20 :=
  listed_or_fallback (g := fun g => decGain (encGain g)) (out := id) (by decide)
    (fun g hg => by rw [encGain_unlisted hg]; rfl) g

theorem decDeadTime_encDeadTime (t : U16) :
    decDeadTime (encDeadTime t) = if t ∈ [400, 450, 650, 850] then t else 850 :=
  listed_or_fallback (g := fun t => decDeadTime (encDeadTime t)) (out := id) (by decide)
    (fun t ht => by rw [encDeadTime_unlisted ht]; rfl) t

/-- Settles O34: the tables' round trips, listed arguments and fallback apart, and the field a merge wrote. -/
theorem decodeUndoesEncode : Obligations.DecodeUndoesEncode :=
  ⟨decMode_encMode, decGain_encGain, decDeadTime_encDeadTime, by decide,
    fun _ hf x _ hc => merge_inside_field x hf hc⟩

/-! ## Extraction and the decode tables (R180 to R183) -/

/-- A field's code is the field's bits, zero-extended. -/
theorem fieldOf_eq_extract (x : U16) (hf : f ∈ allFields) :
    fieldOf x f = (x.extractLsb' f.offset f.width).setWidth 16 := by
  have hend := field_end_le hf
  apply BitVec.eq_of_getLsbD_eq
  intro k hk
  rw [fieldOf, BitVec.getLsbD_ushiftRight, BitVec.getLsbD_and, BitVec.getLsbD_setWidth, BitVec.getLsbD_extractLsb']
  by_cases hbit : f.offset + k < 16
  · rw [getLsbD_fieldMask hf hbit]
    simp [hk, Bool.and_comm]
  · simp [show ¬ k < f.width by omega, BitVec.getLsbD_of_ge _ _ (Nat.le_of_not_lt hbit)]

theorem fieldOf_fits (x : U16) (hf : f ∈ allFields) : (fieldOf x f).toNat < 2 ^ f.width := by
  rw [fieldOf_eq_extract x hf]
  exact setWidth_fits _

theorem decMode_reserved {c : U4} (hc : 9 ≤ c.toNat) : decMode c = none := if_neg (by omega)

/-- Settles O33: a field's code has the field's width, and each table is its listed rows. -/
theorem decodeTables : Obligations.DecodeTables :=
  ⟨fun _ _ => rfl, fun _ hf x => fieldOf_fits x hf, by decide, by decide, fun _ => decMode_reserved, by decide,
    by decide⟩

/-! ## SET_TORQUE and SET_OFF_TIME (R170, R171) -/

theorem and_highByte_eq_zero_iff (d : U16) : d &&& 0xFF00 = 0 ↔ d.extractLsb' 8 8 = 0 := by
  have hsplit : d.extractLsb' 8 8 ++ d.extractLsb' 0 8 = d := joinBytes_frameBytes d
  have hmask : d &&& 0xFF00 = d.extractLsb' 8 8 ++ 0#8 := by
    conv_lhs => rw [← hsplit, show (0xFF00 : U16) = BitVec.allOnes 8 ++ 0#8 by decide]
    rw [BitVec.and_append, BitVec.and_allOnes, BitVec.and_zero]
  rw [hmask, show (0 : U16) = 0#8 ++ 0#8 by decide, append_eq_append_iff]
  exact and_iff_left rfl

/-- The row of a command whose operand is `D[7:0]`. -/
theorem byteCommand_eq_ite (a : U3) (d : U16) :
    byteCommand a d i =
      if a &&& BitVec.allOnes 3 = 0 ∧ d &&& 0xFF00 = 0 then .instr i else .illegal .operandNotZero := by
  rw [BitVec.and_allOnes]
  simp only [byteCommand, and_highByte_eq_zero_iff]

theorem byteCommand_encodedAs {mk : U8 → Instr} (hvalue : value = commandWord opc 0 0)
    (hrow : ∀ a d, decodeOpcode opc a d = byteCommand a d (mk (d.extractLsb' 0 8))) :
    EncodedAs opc value 0xFFFFFF00 [] (fun w => mk (w.extractLsb' 0 8)) := by
  have hlow : ∀ w : U32, (dField w).extractLsb' 0 8 = w.extractLsb' 0 8 := fun _ =>
    BitVec.extractLsb'_extractLsb'_of_le (by decide)
  simp only [← hlow]
  exact encodedAs_of_decodeOpcode (mk := fun _ d => mk (d.extractLsb' 0 8)) hvalue rfl fun a d =>
    (hrow a d).trans (byteCommand_eq_ite a d)

/-- Settles O26: SET_TORQUE's row is the merge into `TORQUE.VAL`. -/
theorem setTorqueWritesTheLowByte : Obligations.SetTorqueWritesTheLowByte :=
  ⟨byteCommand_encodedAs rfl fun _ _ => rfl, fun _ => needsInit_of_targetOf rfl, fun _ => setsTo_of_row fun _ => rfl,
    fun v x => merge_low_byte torqueVal rfl x (v.setWidth 16), exampleSetter_of_row rfl (by decide)⟩

/-- Settles O27: SET_OFF_TIME's row is the merge into `OFF.TOFF`. -/
theorem setOffTimeWritesTheLowByte : Obligations.SetOffTimeWritesTheLowByte :=
  ⟨byteCommand_encodedAs rfl fun _ _ => rfl, fun _ => needsInit_of_targetOf rfl, fun _ => setsTo_of_row fun _ => rfl,
    fun v x => merge_low_byte offToff rfl x (v.setWidth 16), exampleSetter_of_row rfl (by decide)⟩

/-! ## SET_PWM_MODE (R172) -/

/-- A second toggle, whatever its argument, writes back the value the first one read. -/
theorem setterTable_setPwmMode_back (n : U16) (x : Shadow) (c : Bool) :
    setterTable (x.set .off (x.off ^^^ 0x0100)) c (.setPwmMode n) = some (.off, x.off) := by
  exact congrArg (fun v => some (ShadowReg.off, v)) (xor_cancel_right x.off 0x0100)

theorem exec_setPwmMode_twice (m n : U16) (hs : Ready s) (hn : ShadowNarrow s) :
    ∃ t u, exec (.setPwmMode m) s = .next t ∧ exec (.setPwmMode n) t = .next u ∧ u.shadow = s.shadow ∧
      u.trace = t.trace ++ bracket (writeBits 2 s.shadow.off) (Config.busDraw (s.draws + 1)) := by
  have ⟨_, _, hoff, _⟩ := hn
  obtain ⟨t, u, ht, hu, hshadow, -, htrace⟩ := exec_setters_in_a_row (i := .setPwmMode m) hs rfl
    (narrow_of_setterTable (i := .setPwmMode m) hn rfl) (setterTable_setPwmMode_back n s.shadow s.disableClearsAll) hoff
  exact ⟨t, u, ht, hu, hshadow, htrace⟩

/-- Settles O28: the toggle's row does not read the argument, and a second toggle undoes the first. -/
theorem setPwmModeTogglesBitEight : Obligations.SetPwmModeTogglesBitEight := by
  refine ⟨wordCommand_encodedAs rfl fun _ _ => rfl, fun _ => needsInit_of_targetOf rfl,
    fun _ => setsTo_of_row fun _ => rfl, fun m n s hs hn => ?twice, exampleSetter_of_row rfl (by decide), ?back⟩
  case twice =>
    obtain ⟨t, u, ht, hu, hshadow, -⟩ := exec_setPwmMode_twice m n hs hn
    exact ⟨t, u, ht, hu, hshadow⟩
  case back =>
    obtain ⟨t, u, ht, hu, hshadow, htrace⟩ := exec_setPwmMode_twice 1 1 initialisedBlock_ready (by decide)
    exact ⟨t, u, ht, hu, congrArg Shadow.off hshadow, htrace⟩

/-! ## READ_SHADOW (R175) -/

theorem and_readShadowMask_eq_iff :
    w &&& 0xFFF8FFFF = 0x0F000000 ↔ opcField w = 0x0F ∧ rsvField w = 0 ∧ dField w = 0 := by
  refine (and_commandMask_eq_iff (opc := 0x0F) (ma := 0) (md := BitVec.allOnes 16)).trans ?_
  rw [BitVec.and_allOnes, and_assoc]
  simp

/-- Among the words of the row's pattern those of 0x5 and 0x6 are the ones left out. -/
theorem mem_excluded_iff_no_shadow (hrsv : rsvField w = 0) (hopc : opcField w = 0x0F) (hd : dField w = 0) :
    w ∈ [0x0F050000, 0x0F060000] ↔ hasShadow (aField w) = false := by
  have hall : ∀ a : U3, commandWord 0x0F a 0 ∈ [0x0F050000, 0x0F060000] ↔ hasShadow a = false := by decide
  have hword := commandWord_of_fields w hrsv
  rw [hopc, hd] at hword
  rw [← hall, hword]

theorem readShadow_encodedAs :
    EncodedAs 0x0F 0x0F000000 0xFFF8FFFF [0x0F050000, 0x0F060000] (fun w => .readShadow (w.extractLsb' 16 3)) := by
  refine ⟨fun w hw hkept => ?decodes, fun w s hopc hmiss hf => ?faults⟩
  case decodes =>
    obtain ⟨hopc, hrsv, hd⟩ := and_readShadowMask_eq_iff.1 hw
    have hshadow : hasShadow (aField w) = true := by
      simpa using mt (mem_excluded_iff_no_shadow hrsv hopc hd).2 hkept
    have hdec : decodeCommand w = .instr (.readShadow (aField w)) :=
      decodeCommand_eq_instr.2 ⟨hrsv, by rw [hopc]; exact decodeReadShadow_eq_instr.2 ⟨hd, hshadow, rfl⟩⟩
    exact ⟨hdec, (encode_of_decodeCommand hdec).1⟩
  case faults =>
    have hfield : opcField w = 0x0F := hopc
    by_cases hrsv : rsvField w = 0
    · have hoperand : dField w ≠ 0 ∨ aField w = 5 ∨ aField w = 6 := by
        by_cases hd : dField w = 0
        · have hexcluded := hmiss.resolve_left (not_not_intro (and_readShadowMask_eq_iff.2 ⟨hfield, hrsv, hd⟩))
          exact .inr (hasShadow_eq_false.1 ((mem_excluded_iff_no_shadow hrsv hfield hd).1 hexcluded))
        · exact .inl hd
      obtain ⟨why, hdec⟩ := decodeReadShadow_illegal.2 hoperand
      refine issue_illegal (why := why) ?_ hf
      rw [decode, decodeCommand, if_neg (not_not_intro hrsv), hfield]
      exact hdec
    · exact issue_illegal (if_pos hrsv) hf

theorem exists_addr_eq : ∀ a : U3, a ≠ 5 → a ≠ 6 → ∃ r, ShadowReg.addr r = a := by
  have hall : ∀ a : U3, a ≠ 5 → a ≠ 6 → (shadowAt a).map ShadowReg.addr = some a := by decide
  intro a h5 h6
  obtain ⟨r, -, hr⟩ := Option.map_eq_some_iff.1 (hall a h5 h6)
  exact ⟨r, hr⟩

/-- Settles O29: READ_SHADOW passes R110's halt check only, and STATUS holds 0x0000 where the shadow invariant holds. -/
theorem readShadowReturnsTheShadow : Obligations.ReadShadowReturnsTheShadow := by
  refine ⟨readShadow_encodedAs, exists_addr_eq, fun r s hf => exec_readShadow_addr r hf, fun s hf hinv => ?status,
    ?exampleCtrl⟩
  case status =>
    obtain ⟨-, -, -, hstatus⟩ := hinv
    exact ⟨_, exec_readShadow_addr .status hf, congrArg some hstatus⟩
  case exampleCtrl =>
    have hdec : decode (.command 0x0F000000) = .instr (.readShadow ShadowReg.ctrl.addr) := by decide
    rw [issue_instr hdec, exec_readShadow_addr .ctrl rfl]
    exact ⟨_, rfl, rfl, rfl⟩

end Sys2Proof.Proofs

namespace Sys2Proof.Proofs

/-! SUPPORT. Faults: which check is reported, what a fault leaves, and what a halted block does (60_exceptions.md R205
to R207), and power-on (R216, 70_reset_and_hazards.md R233). -/

open Sys2Proof.Machine Sys2Proof.Safety

variable {i : Instr} {w : U32} {r : FaultReason} {s t : State}

/-! ## A halted block (R206, R207) -/

/-- Every instruction is behind the halt check of R110. -/
theorem exec_behind_whenRunning (i : Instr) (s : State) : ∃ run, exec i s = whenRunning s run := by
  cases i <;> exact ⟨_, rfl⟩

theorem exec_halted (i : Instr) (hf : s.fault ≠ none) : exec i s = .next s := by
  obtain ⟨run, hexec⟩ := exec_behind_whenRunning i s
  rw [hexec, whenRunning_halted hf]

theorem illegalPacket_halted (p : Packet) (hf : s.fault ≠ none) : illegalPacket p s = .next s := by
  cases p <;> exact whenRunning_halted hf

theorem runPacket_halted (p : Packet) (hf : s.fault ≠ none) : runPacket exec p s = .next s := by
  rw [runPacket]
  split
  · exact exec_halted _ hf
  · exact illegalPacket_halted p hf

/-- An instruction on a running block either raises no fault or does nothing but record one. -/
theorem exec_running_or_afterFault (hf : s.fault = none) (h : exec i s = .next t) :
    t.fault = none ∨ ∃ reason, t = afterFault reason i.word s := by
  rcases exec_by_bus_action h with ⟨_, rfl⟩ | ⟨_, faulted⟩ | ⟨_, _, rfl⟩ | ⟨_, _, _, rfl⟩ | ⟨_, _, _, _, _, _, _, rfl⟩
  pick_goal 2
  · exact .inr faulted
  all_goals exact .inl hf

/-- Between commands no bracket is open, so chip-select is at its inactive level or not yet bound (10_state.md R29). -/
theorem cs_of_busInv (hs : BusInv s) : s.cs = .deasserted ∨ s.cs = .unbound ∧ s.initialized = false := by
  obtain ⟨-, -, hcs, -⟩ := hs
  cases hi : s.initialized with
  | true => exact .inl (by simpa [hi] using hcs)
  | false => exact .inr ⟨by simpa [hi] using hcs, rfl⟩

/-- Settles O41: an instruction that faults leaves the old state but for the record, chip-select included, and every
instruction and every word is behind the halt check. -/
theorem faultsArePreciseAndHalt : Obligations.FaultsArePreciseAndHalt := by
  refine ⟨fun i s t hf h hfault => ?precise, fun i s hf => exec_halted i hf, fun w s hf => runPacket_halted _ hf⟩
  obtain ⟨reason, rfl⟩ := (exec_running_or_afterFault hf h).resolve_left hfault
  exact ⟨rfl, cs_of_busInv⟩

/-- Settles O42: a packet does nothing on a halted block, and the device's own changes do not reach the record. -/
theorem onlyResetClearsAFault : Obligations.OnlyResetClearsAFault := by
  refine ⟨fun s t inp rest hin hf hreset h => ?kept, fun s rest hin => ⟨_, step_blockReset hin, blockReset_fault _⟩⟩
  rw [step_of_inputs hin] at h
  cases inp with
  | issue p =>
    have hlost : runPacket exec p { s with inputs := rest } = .next { s with inputs := rest } := runPacket_halted p hf
    rw [respondTo, hlost] at h
    cases h; rfl
  | deviceReset | stepSelfClear => cases h; rfl
  | issueCut _ _ | blockReset | powerCycle => cases hreset

/-! ## The first failing check (R205) -/

/-- Before INIT the common gate answers for every instruction but INIT and READ_SHADOW (R202). -/
theorem exec_before_init (hinit : ∀ l, i ≠ .init l) (hshadow : ∀ a, i ≠ .readShadow a) (hf : s.fault = none)
    (hi : s.initialized = false) : exec i s = .next (afterFault .notInitialized i.word s) := by
  cases i with
  | init l => exact absurd rfl (hinit l)
  | readShadow a => exact absurd rfl (hshadow a)
  | _ => exact whenInitialized_before_init hf hi

/-- The check that fails first is the one an instruction records (R205). -/
theorem exec_of_commandFault_eq_some (hf : s.fault = none) (h : commandFault i s = some r) :
    exec i s = .next (afterFault r i.word s) := by
  cases i with
  | init l =>
    obtain ⟨hi, rfl⟩ : s.initialized = true ∧ .alreadyInitialized = r := by simpa [commandFault] using h
    exact exec_init_again l hf hi
  | readShadow a => cases h
  | write a v =>
    cases hi : s.initialized with
    | false =>
      obtain rfl : .notInitialized = r := by simpa [commandFault, hi] using h
      exact exec_before_init nofun nofun hf hi
    | true =>
      obtain ⟨hv, rfl⟩ : ¬ Narrow v ∧ .writeValueTooWide = r := by simpa [commandFault, hi] using h
      exact exec_write_wide a ⟨hf, hi⟩ hv
  | _ =>
    obtain ⟨hi, rfl⟩ : s.initialized = false ∧ .notInitialized = r := by simpa [commandFault] using h
    exact exec_before_init nofun nofun hf hi

/-- With no failing check every instruction that has an encoding completes. -/
theorem exec_of_commandFault_eq_none (hwf : i.wellFormed = true) (hf : s.fault = none) (hn : ShadowNarrow s)
    (h : commandFault i s = none) : ∃ t, exec i s = .next t ∧ t.fault = none := by
  cases i with
  | init l =>
    have hi : s.initialized = false := by simpa [commandFault] using h
    exact ⟨_, exec_init_binds l hf hi, hf⟩
  | readShadow a =>
    obtain ⟨h5, h6⟩ : a ≠ 5 ∧ a ≠ 6 := by simpa [Instr.wellFormed, hasShadow] using hwf
    obtain ⟨reg, rfl⟩ := exists_addr_eq a h5 h6
    exact ⟨_, exec_readShadow_addr reg hf, hf⟩
  | write a v =>
    obtain ⟨hi, hv⟩ : s.initialized = true ∧ Narrow v := by simpa [commandFault, ite_eq_iff, Narrow] using h
    exact ⟨_, exec_write_narrow a ⟨hf, hi⟩ hv, hf⟩
  | read a =>
    have hi : s.initialized = true := by simpa [commandFault] using h
    exact ⟨_, exec_read_ready a ⟨hf, hi⟩, hf⟩
  | readFrame a | writeFrame a d =>
    have hi : s.initialized = true := by simpa [commandFault] using h
    exact ⟨_, whenInitialized_ready hf hi, hf⟩
  | _ =>
    have hi : s.initialized = true := by simpa [commandFault] using h
    obtain ⟨hcompletes, -⟩ := settersNeverFailOnTheirArgument
    exact (hcompletes _ _ s rfl hn hf).1 hi

theorem wordFault_illegal {why : IllegalReason} (hdec : decode (.command w) = .illegal why) (s : State) :
    wordFault w s = some .illegalCommand := by
  rw [wordFault, hdec]

theorem wordFault_instr (hdec : decode (.command w) = .instr i) (s : State) : wordFault w s = commandFault i s := by
  rw [wordFault, hdec]

theorem issue_of_wordFault_eq_some (hf : s.fault = none) (h : wordFault w s = some r) :
    issue w s = .next (afterFault r w s) := by
  cases hdec : decode (.command w) with
  | illegal why =>
    obtain rfl := Option.some.inj ((wordFault_illegal hdec s).symm.trans h)
    exact issue_illegal hdec hf
  | instr i =>
    have hword : i.word = w := congrArg Packet.word (encode_of_decodeCommand hdec).1
    rw [wordFault_instr hdec] at h
    rw [issue_instr hdec, exec_of_commandFault_eq_some hf h, hword]

theorem issue_of_wordFault_eq_none (hf : s.fault = none) (hn : ShadowNarrow s) (h : wordFault w s = none) :
    ∃ t, issue w s = .next t ∧ t.fault = none := by
  cases hdec : decode (.command w) with
  | illegal why => cases (wordFault_illegal hdec s).symm.trans h
  | instr i =>
    rw [wordFault_instr hdec] at h
    rw [issue_instr hdec]
    exact exec_of_commandFault_eq_none (encode_of_decodeCommand hdec).2 hf hn h

/-- Settles O40: decoding is the first check and the instruction's own checks come after it; the two words of the
example each fail an early check and would fail a later one too. -/
theorem firstFailingCheckIsReported : Obligations.FirstFailingCheckIsReported :=
  ⟨fun _ _ _ => issue_of_wordFault_eq_some, fun _ _ => issue_of_wordFault_eq_none,
    issue_of_wordFault_eq_some rfl (by decide), issue_of_wordFault_eq_some rfl (by decide)⟩

/-! ## Power-on (R216, R233) -/

theorem step_powerCycle {rest : List Input} (h : s.inputs = .powerCycle :: rest) :
    step s = .next (powerCycle { s with inputs := rest }) :=
  step_of_inputs h

/-- Settles O2: a power cycle leaves the state after power-on but for the parameter, the draw counter and the inputs. -/
theorem powerCycleRestoresBlockAndDevice : Obligations.PowerCycleRestoresBlockAndDevice := by
  have hmirror : Mirrored State.reset := by decide
  refine ⟨⟨rfl, hmirror⟩, fun s rest hin => ⟨_, step_powerCycle hin, ?_⟩⟩
  exact ⟨⟨rfl, rfl, rfl, rfl, rfl, rfl, rfl, rfl⟩, rfl, rfl, hmirror, rfl, rfl⟩

end Sys2Proof.Proofs

namespace Sys2Proof.Proofs

/-! SUPPORT. Waiting for the host, a command cut by a reset (70_reset_and_hazards.md R232, R234), and a setter behind a raw
WRITE of its register (R241). -/

open Sys2Proof.Machine Sys2Proof.Safety

variable {i : Instr} {p : Packet} {r : ShadowReg} {a : U3} {v new : U16} {k : Nat} {s t : State}

/-! ## Waiting (R232) -/

/-- Settles O4: with no input there is nothing to serve. -/
theorem blockWaitsForTheHost : Obligations.BlockWaitsForTheHost := by
  intro s hnone
  rw [step, serve, hnone]

/-! ## A command cut by a reset (R234) -/

theorem blockAtReset_blockReset (s : State) : BlockAtReset (blockReset s) :=
  ⟨rfl, rfl, rfl, rfl, rfl, rfl, rfl, rfl⟩

theorem foldl_advance_inputs (es : List BusEvent) (s : State) : (es.foldl advance s).inputs = s.inputs := by
  induction es generalizing s with
  | nil => rfl
  | cons e es ih => exact (ih _).trans (advance_inputs s e)

theorem cutByReset_inputs (k : Nat) (s t : State) : (cutByReset k s t).inputs = s.inputs :=
  foldl_advance_inputs _ s

/-- The trace after a cut: the first `k` events of the whole command, and the reset. -/
theorem cutByReset_trace (k : Nat) {evs : List BusEvent} (h : t.trace = s.trace ++ evs) :
    (cutByReset k s t).trace = s.trace ++ evs.take k ++ [.reset] := by
  rw [cutByReset, blockReset_trace, foldl_advance_trace, emitted_of_trace_eq h]

/-- A step on a cut packet is the cut of the step that would have run it whole. -/
theorem step_issueCut_eq_next (h : step { s with inputs := .issueCut p k :: s.inputs } = .next t) :
    ∃ u, step (present p s) = .next u ∧ t = cutByReset k s u := by
  rw [step_of_inputs rfl, respondTo] at h
  split at h
  · next u hu => exact ⟨u, hu, (Host.Outcome.next.inj h).symm⟩
  · cases h
  · cases h

/-- Settles O52: a cut ends in a reset of the block, and the events before it are the first of those the whole command
appends to the trace. -/
theorem cutCommandLeavesTheResetState : Obligations.CutCommandLeavesTheResetState := by
  intro p k s t h
  obtain ⟨u, hu, rfl⟩ := step_issueCut_eq_next h
  obtain ⟨evs, hevs⟩ := runPacket_trace_prefix hu
  exact ⟨blockAtReset_blockReset _, cutByReset_inputs k s u, u, evs, hu, hevs.symm, cutByReset_trace k hevs.symm⟩

/-! ## A setter behind a raw WRITE (R241) -/

/-- A narrow value sent to one of 0x0 to 0x4 is what the device then holds there (20_memory.md R62). -/
theorem read_dev_afterWriteFrame (s : State) (hv : Narrow v) (ha : a.toNat ≤ 4) :
    Memory.read (afterWriteFrame a v s).dev a.toNat = some v := by
  rw [← transact_writeFrameWord s hv, read_dev_transact_writeFrameWord s hv ha, if_pos rfl]

/-- The setter after a raw WRITE takes its row from the shadow as it was before the WRITE. -/
theorem exec_setter_after_write (hs : Ready s) (hv : Narrow v)
    (hrow : setterTable s.shadow s.disableClearsAll i = some (r, new)) (hnew : Narrow new) (a : U3) :
    exec (.write a v) s = .next (afterCommand none (afterWriteFrame a v s)) ∧
      exec i (afterCommand none (afterWriteFrame a v s)) =
        .next (afterSetter r new (afterCommand none (afterWriteFrame a v s))) :=
  ⟨exec_write_narrow a hs hv, exec_setter_ready (s := afterCommand none (afterWriteFrame a v s)) hs hrow hnew⟩

/-- Outside the field it writes, a setter's row keeps the old shadow's bits (41_controller_ctrl.md R132). -/
theorem row_outside_field {f : BitField} {x : Shadow} {c : Bool} (hrow : setterTable x c i = some (r, new))
    (hfield : fieldWritten i = some f) (hclear : ¬ (i = .disable ∧ c = true)) :
    new &&& ~~~(fieldMask f) = x.get r &&& ~~~(fieldMask f) := by
  obtain ⟨hf, code, hcode, hmerge⟩ := row_eq_merge hfield hclear
  cases hrow.symm.trans hmerge
  exact merge_outside_field _ hf hcode

/-- The setters reach exactly CTRL, TORQUE and OFF. -/
theorem addr_le_two_iff_target (a : U3) : a.toNat ≤ 2 ↔ ∃ i r, targetOf i = some r ∧ r.addr = a := by
  constructor
  · intro ha
    have hcases : ∀ a : U3, a.toNat ≤ 2 → a = 0 ∨ a = 1 ∨ a = 2 := by decide
    rcases hcases a ha with rfl | rfl | rfl
    · exact ⟨.enable, .ctrl, rfl, rfl⟩
    · exact ⟨.setTorque 0, .torque, rfl, rfl⟩
    · exact ⟨.setPwmMode 0, .off, rfl, rfl⟩
  · rintro ⟨i, r, htarget, rfl⟩
    obtain ⟨new, hrow⟩ := setterTable_of_targetOf htarget Shadow.reset false
    rcases register_of_setterTable hrow with rfl | rfl | rfl <;> decide

/-- Settles O39: a raw WRITE reaches only the device, so the setter's row, and with it the frame sent, comes from the old
shadow. -/
theorem staleShadowAfterRawWrite : Obligations.StaleShadowAfterRawWrite := by
  refine ⟨fun i r new v s hs hn hv hrow => ?setter, addr_le_two_iff_target, ?exampleFlipDir⟩
  case setter =>
    have hnew : Narrow new := narrow_of_setterTable hn hrow
    have haddr : r.addr.toNat ≤ 4 := addr_le_of_setterTable hrow
    obtain ⟨hwrite, hsetter⟩ := exec_setter_after_write hs hv hrow hnew r.addr
    exact ⟨_, _, hwrite, rfl, read_dev_afterWriteFrame s hv haddr, hsetter, rfl,
      read_dev_afterWriteFrame (afterCommand none (afterWriteFrame r.addr v s)) hnew haddr,
      fun f hfield hclear => row_outside_field hrow hfield hclear⟩
  case exampleFlipDir =>
    obtain ⟨hwrite, hflip⟩ := exec_setter_after_write (i := .flipDir) (v := 0x0C11) (new := 0x0C12)
      initialisedBlock_ready (by decide) rfl (by decide) 0
    exact ⟨_, _, hwrite, rfl, hflip, rfl⟩

end Sys2Proof.Proofs
